-- ==== Sys2Proof/Word.lean ====
section
/-! DEFINITION. The words of the ES-24 and the small name types that its commands carry.
Octets, identities and CRC values are bits to the manual (0.7.1), so they are bit vectors.
Heads, sections and links are names with a fixed range, so they are `Fin`. -/

namespace Sys2Proof

/-- One octet of a line or of a table record (R50, R164). -/
abbrev Octet := BitVec 8

/-- A 24-bit head identity (R20, R73). -/
abbrev Identity := BitVec 24

/-- A value of the part's one CRC (R86). -/
abbrev Crc := BitVec 16

/-- A logical head, 0 to 31 (0.3). -/
abbrev HeadId := Fin 32

/-- A section, 0 to 23 (0.3). -/
abbrev SectionId := Fin 24

/-- A head link, 0 to 3 (0.3). -/
abbrev LinkId := Fin 4

/-- A line with a receiver: one of the four head links, or the count line (R51, R141). -/
inductive Line where
  | headLink (link : LinkId)
  | countLine
deriving DecidableEq, Repr

/-- The RATE strap: low selects 38 400 bit/s, high 115 200 bit/s (0.6). -/
inductive Rate where
  | low
  | high
deriving DecidableEq, Repr

/-- What brings a full reset (R163). -/
inductive ResetCause where
  | powerOn
  | resetPin
  | strapZero
deriving DecidableEq, Repr

/-- What ends a full reset (R163): power-on complete, reset pin released, or the address strap
returned to the value given. -/
inductive ResetEnd where
  | powerOnComplete
  | resetPinReleased
  | strapReturned (address : BitVec 4)
deriving DecidableEq, Repr

end Sys2Proof
end

