-- ==== Sys2Proof/Config.lean ====
section
/-! DEFINITION. The topology table (chapter 04): what configures the part.
A record is held as its encoding of R168 can carry it, so a field that can be written outside its
range (a link of 5, a direction of 0) keeps the value as sent, for TABLE READ, for check C1 and for
the table CRC (R69, R77, R168). The spec leaves no value free, so this file declares none. -/

namespace Sys2Proof.Machine

/-- The 57 records of a table have three kinds (R69). -/
inductive RecordKind where
  | global
  | head
  | sectionRecord
deriving DecidableEq, Repr

/-- A boundary entry: a logical head and an inward direction, as octets (R74, R168). -/
structure BoundaryEntry where
  head   : Octet
  inward : Octet
deriving DecidableEq, Repr

/-- The global record (R71). Times are milliseconds. -/
structure GlobalRecord where
  reportCycle : BitVec 16
  holdLimit   : BitVec 16
  startMode   : Octet
  enabled     : Vector Bool 4
  threshold   : Vector (BitVec 4) 4
deriving DecidableEq, Repr

/-- A head record of the table (R73). -/
structure HeadRecord where
  present        : Bool
  mirror         : Bool
  link           : Octet
  station        : Octet
  expected       : Identity
  silenceTimeout : BitVec 16
  acquireCount   : Octet
  rockLimit      : Octet
  levelFloor     : Octet
deriving DecidableEq, Repr

/-- A section record of the table (R74). The boundary list keeps the order written (R75). -/
structure SectionRecord where
  present     : Bool
  directReset : Bool
  countLimit  : BitVec 16
  confirmTime : BitVec 16
  boundary    : List BoundaryEntry
deriving DecidableEq, Repr

/-- A topology table: 57 records under a fixed set of keys (R69). -/
structure Table where
  global   : GlobalRecord
  heads    : Vector HeadRecord 32
  sections : Vector SectionRecord 24
deriving DecidableEq, Repr

/-- One record with its kind, as TABLE WRITE and TABLE READ carry it (R128, R129). -/
inductive TableRecord where
  | global (record : GlobalRecord)
  | head (record : HeadRecord)
  | sectionRecord (record : SectionRecord)
deriving DecidableEq, Repr

/-- The blank records of R70; a blank GLOBAL record has start mode HALT, coded 2 (R168). -/
def GlobalRecord.blank : GlobalRecord :=
  { reportCycle := 0, holdLimit := 0, startMode := 2
    enabled := Vector.replicate 4 false, threshold := Vector.replicate 4 0 }

/-- The blank head record of R70. -/
def HeadRecord.blank : HeadRecord :=
  { present := false, mirror := false, link := 0, station := 0, expected := 0
    silenceTimeout := 0, acquireCount := 0, rockLimit := 0, levelFloor := 0 }

/-- The blank section record of R70. -/
def SectionRecord.blank : SectionRecord :=
  { present := false, directReset := false, countLimit := 0, confirmTime := 0, boundary := [] }

/-- The table of 57 blank records (R70). -/
def Table.blank : Table :=
  { global := GlobalRecord.blank
    heads := Vector.replicate 32 HeadRecord.blank
    sections := Vector.replicate 24 SectionRecord.blank }

end Sys2Proof.Machine
end

