-- ==== Sys2Proof/Syntax.lean ====
section
/-! DEFINITION. The commands of the block: one constructor per row of spec/opcode_table.json, with
the operands the row's rule gives it.

The octets of a reception command are the octets on the wire, in the order they arrive, SYNC
included; on an INVERTED head link they are the inverted octets. The octets decide what happens,
by R50 to R58, so a partial telegram leaves its receiver in FRAME.

A request command is a telegram of its kind that passes CRC and is addressed to the part. `body` is
its body octets: the request tag and then the request's fields (R166). -/

namespace Sys2Proof

/-- The commands, in the order of the table. -/
inductive Instr where
  /-- Power-on, reset pin asserted, or address strap 0 (R163). -/
  | fullReset (cause : ResetCause)
  /-- The address straps change to `address` (R142). -/
  | addressStrapChange (address : BitVec 4)
  /-- The rate strap changes to `rate` (R142). -/
  | rateStrapChange (rate : Rate)
  /-- One octet arrives at a line's receiver (R51). -/
  | syncMiss (line : Line) (octet : Octet)
  /-- The octets up to a bad length octet arrive (R52). -/
  | lengthBadFrame (line : Line) (octets : List Octet)
  /-- These octets arrive, and then more than 4 octet times with none (R52). -/
  | charTimeout (line : Line) (octets : List Octet)
  /-- The octets of a telegram whose CRC differs arrive (R52). -/
  | crcBadFrame (line : Line) (octets : List Octet)
  /-- A gap of more than 4 octet times with no octet received (R51). -/
  | quietInterval (line : Line)
  /-- The octets of a telegram arrive on a head link (R53 to R60). -/
  | headStatusTelegram (link : LinkId) (octets : List Octet)
  /-- Expiry of a head's silence timer (R26). -/
  | silenceExpiry (head : HeadId)
  /-- Expiry of a section's confirm timer (R101). -/
  | confirmExpiry (sec : SectionId)
  /-- A head link's transmitter starts the queue head's relay telegram (R61). -/
  | relayTransmissionStart (link : LinkId)
  /-- The last octet of a relay telegram (R61, R64). -/
  | relayTransmissionEnd (link : LinkId)
  /-- Expiry of a link's relay timer (R66). -/
  | relayTimerExpiry (link : LinkId)
  /-- Request of kind 10 (R148). -/
  | statusQuery (body : List Octet)
  /-- Request of kind 11 (R110). -/
  | sectionQuery (body : List Octet)
  /-- Request of kind 12 (R90). -/
  | start (body : List Octet)
  /-- Request of kind 13 (R91). -/
  | halt (body : List Octet)
  /-- Request of kind 14 (R111). -/
  | sectionReset (body : List Octet)
  /-- Request of kind 15 (R47). -/
  | headQuery (body : List Octet)
  /-- Request of kind 16 (R48). -/
  | headRelease (body : List Octet)
  /-- Request of kind 17 (R49). -/
  | headAdopt (body : List Octet)
  /-- Request of kind 18 (R59). -/
  | linkQuery (body : List Octet)
  /-- Request of kind 19 (R63). -/
  | headRelay (body : List Octet)
  /-- Request of kind 1A (R128). -/
  | tableWrite (body : List Octet)
  /-- Request of kind 1B (R129). -/
  | tableRead (body : List Octet)
  /-- Request of kind 1C (R130). -/
  | tableCopy (body : List Octet)
  /-- Request of kind 1D (R131). -/
  | tableCheck (body : List Octet)
  /-- Request of kind 1E (R132). -/
  | tableActivate (body : List Octet)
  /-- Request of kind 1F (R160). -/
  | store (body : List Octet)
  /-- Request of kind 20 (R161). -/
  | commission (body : List Octet)
  /-- Request of kind 21 (R162). -/
  | eraseStore (body : List Octet)
  /-- The storage reports the operation's writes done (R159). `readBack` is the stored table as
  the storage then reads it back: `none` when it reads back as written, `some t` when it reads `t`. -/
  | writeCompletion (readBack : Option Machine.Table)
  /-- Expiry of the store timer (R159). -/
  | storeTimerExpiry
  /-- Request of kind 22 (R156). -/
  | hold (body : List Octet)
  /-- Request of kind 23 (R157). -/
  | proceed (body : List Octet)
  /-- Expiry of the hold-limit timer (R157). -/
  | holdLimitExpiry
  /-- Expiry of the report-cycle timer (R150). -/
  | reportCycleExpiry
  /-- The idle count-line transmitter chooses and starts a telegram (R155). -/
  | transmissionStart
  /-- The last octet of a count-line telegram (R145, R152, R155). -/
  | transmissionEnd
  /-- What held the part in full reset ends (R163). -/
  | fullResetEnd (event : ResetEnd)
  /-- A count-line telegram that passes CRC, with the address octet it carries (R142). -/
  | telegramAddressedElsewhere (address kind : Octet) (body : List Octet)
  /-- A count-line telegram addressed to the part, of the kind it carries (R143). -/
  | requestOfUnknownKind (kind : Octet) (body : List Octet)
deriving DecidableEq, Repr

end Sys2Proof
end

