-- ==== Sys2Proof/Decode.lean ====
section
/-! DEFINITION. The commands that a word spells by the opcode table's bits.
No row of spec/opcode_table.json gives its command any bits ("fields" is empty in every row), so no
word spells a command. -/

namespace Sys2Proof

/-- The command that `w` spells in `nbits` bits by the table: none of the table's rows gives bits. -/
def decodeTableWord (_nbits _w : Nat) : Option Instr := none

end Sys2Proof
end

