-- ==== Sys2Proof/Machine/State.lean ====
section
/-! DEFINITION. The state of the ES-24, block by block as 0.4 lists it, and the value of each piece
after a full reset. The station map and the boundary index of R84 are derived from the active table
and are functions of it (Machine/Operands.lean), not second copies. -/

namespace Sys2Proof.Machine

/-- A timer of R1: stopped, or running with the whole milliseconds left to its expiry. -/
inductive Timer where
  | stopped
  | running (left : Nat)
deriving DecidableEq, Repr

/-! ## Heads and decoders (chapters 01 and 02) -/

/-- The four phases of a head (0.7.3). -/
inductive Phase where
  | free
  | aOnly
  | bOnly
  | both
deriving DecidableEq, Repr

/-- The sensor system a passage began on, or none (R2). -/
inductive EntrySide where
  | none
  | a
  | b
deriving DecidableEq, Repr

/-- The two directions of travel over a head (0.7.3). -/
inductive Dir where
  | ab
  | ba
deriving DecidableEq, Repr

/-- The decoder record of R2. -/
structure DecoderRec where
  phase   : Phase
  side    : EntrySide
  rock    : Nat
  tallyAB : BitVec 16
  tallyBA : BitVec 16
deriving DecidableEq, Repr

/-- The head states of R22. -/
inductive HeadState where
  | absent
  | acquiring
  | inService
  | failed
deriving DecidableEq, Repr

/-- The fail causes of R22. -/
inductive HeadCause where
  | none
  | silence
  | sequenceLoss
  | phaseError
  | sensorLow
  | supplyAlarm
  | identityMismatch
  | headRestarted
  | linkLost
deriving DecidableEq, Repr

/-- The health block of R20. -/
structure Health where
  levelA           : BitVec 4
  levelB           : BitVec 4
  supplyAlarm      : Bool
  temperatureAlarm : Bool
  identity         : Identity
deriving DecidableEq, Repr

/-- The baseline of R22. -/
structure Baseline where
  sequence    : BitVec 4
  changeCount : BitVec 8
deriving DecidableEq, Repr

/-- The head record of R22. -/
structure HeadRec where
  state             : HeadState
  baseline          : Option Baseline
  run               : Nat
  identityConfirmed : Bool
  silence           : Timer
  health            : Option Health
  learned           : Option Identity
  lastCause         : HeadCause
deriving DecidableEq, Repr

/-! ## Head links (chapter 03) -/

/-- The polarity of a link or of a candidate (R54). -/
inductive Polarity where
  | direct
  | inverted
deriving DecidableEq, Repr

/-- The receive conditions of R51, with the octets received after SYNC in FRAME. -/
inductive Rx where
  | wait
  | hunt
  | frame (octets : List Octet)
deriving DecidableEq, Repr

/-- Link state, polarity and receive condition of R54. Polarity is held in LOCKED alone; a
candidate telegram stands in SEARCH alone. -/
inductive LinkMode where
  | off
  | search (candidate : Option (Polarity × List Octet))
  | locked (polarity : Polarity) (rx : Rx)
deriving DecidableEq, Repr

/-- The link states by name, as LINK QUERY and notice LINK_STATE carry them (R54). -/
inductive LinkState where
  | off
  | search
  | locked
deriving DecidableEq, Repr

/-- The relay command codes (R62). -/
inductive RelayCode where
  | restart
  | healthRequest
deriving DecidableEq, Repr

/-- The target of a relay command (R62). -/
inductive RelayTarget where
  | head (head : HeadId)
  | broadcast
deriving DecidableEq, Repr

/-- The stage of a relay command (R62). -/
inductive RelayStage where
  | waiting
  | transmitting
  | awaitingEcho
deriving DecidableEq, Repr

/-- A relay command (R62). -/
structure RelayCommand where
  target  : RelayTarget
  station : Octet
  code    : RelayCode
  tag     : BitVec 4
  stage   : RelayStage
deriving DecidableEq, Repr

/-- The results of a relay command (R68). -/
inductive RelayResult where
  | done
  | noEcho
  | sent
  | cancelled
deriving DecidableEq, Repr

/-- The five cumulative bad-frame counters of a head link (R54). -/
structure LinkCounts where
  syncMiss    : Nat
  length      : Nat
  charTimeout : Nat
  crc         : Nat
  format      : Nat
deriving DecidableEq, Repr

/-- The link record of R54. The transmitter is busy while it holds the octets of a relay telegram
as they stand on the wire; its transmit enable output is asserted while it is busy (R61). -/
structure LinkRec where
  mode           : LinkMode
  run            : Nat
  counts         : LinkCounts
  strays         : Nat
  repeats        : Nat
  mirrorsDropped : Nat
  latch          : Bool
  transmitter    : Option (List Octet)
  queue          : List RelayCommand
  tag            : BitVec 4
  timer          : Timer
deriving DecidableEq, Repr

/-! ## Sections (chapters 05 and 06) -/

/-- The evaluator states of R88. -/
inductive EvaluatorState where
  | unconfigured
  | halted
  | running
deriving DecidableEq, Repr

/-- The section states of R92. -/
inductive SectionState where
  | absent
  | clear
  | occupied
  | clearing
  | restoring
  | disturbed
deriving DecidableEq, Repr

/-- The causes of R92 and R103. -/
inductive Cause where
  | none
  | startUp
  | halt
  | headFailed (head : HeadId) (cause : HeadCause)
  | underflow
  | overflow
  | reconfigured
deriving DecidableEq, Repr

/-- The section record of R92. -/
structure SectionRec where
  state   : SectionState
  count   : Nat
  number  : BitVec 8
  cause   : Cause
  sweep   : Bool
  tally   : Nat
  latch   : Bool
  confirm : Timer
deriving DecidableEq, Repr

/-! ## Tables (chapters 04 and 07) -/

/-- The active table with its CRC (R87, R125). -/
structure ActiveTable where
  table : Table
  crc   : Crc
deriving DecidableEq, Repr

/-- The staging state with the staging CRC, held while CHECKED and none while EDITING (R125). -/
inductive StagingState where
  | editing
  | checked (crc : Crc)
deriving DecidableEq, Repr

/-- The consistency checks of chapter 04. -/
inductive CheckCode where
  | c1
  | c2
  | c3
  | c4
  | c5
  | c6
  | c7
  | c8
deriving DecidableEq, Repr

/-- The first failure of a TABLE CHECK (R76). -/
structure CheckFailure where
  code   : CheckCode
  kind   : RecordKind
  number : Nat
deriving DecidableEq, Repr

/-- The last check result of R125. -/
inductive CheckResult where
  | none
  | pass (crc : Crc)
  | fail (failure : CheckFailure)
deriving DecidableEq, Repr

/-- The table manager's state (R125). -/
structure TableManager where
  active       : Option ActiveTable
  staging      : Table
  stagingState : StagingState
  lastCheck    : CheckResult
deriving DecidableEq, Repr

/-! ## The count line (chapter 08) -/

/-- The refusal reasons of R147, with the order of its table. -/
inductive Reason where
  | state
  | range
  | stale
  | busy
  | notPermitted
  | headsNotReady
  | notChecked
  | crcMismatch
  | commissioned
  | format
deriving DecidableEq, Repr

/-- The outcomes of R147. -/
inductive ReplyOutcome where
  | done
  | accepted
  | refused (reason : Reason)
deriving DecidableEq, Repr

/-- A reply: the tag and kind octet of its request, its outcome, and the octets of its items (R147,
R166). -/
structure Reply where
  tag     : Octet
  kind    : Octet
  outcome : ReplyOutcome
  items   : List Octet
deriving DecidableEq, Repr

/-- The four bad-frame counts of the count line (R141). -/
structure CountLineCounts where
  syncMiss    : Nat
  length      : Nat
  charTimeout : Nat
  crc         : Nat
deriving DecidableEq, Repr

/-- The count line controller's state (R141, R145, R146). -/
structure CountLine where
  rx      : Rx
  replies : List Reply
  dropped : Nat
  counts  : CountLineCounts
deriving DecidableEq, Repr

/-! ## The image store (chapter 10) -/

/-- The marker of the image (R158). -/
inductive Marker where
  | blank
  | writing
  | valid
  | commissioned
deriving DecidableEq, Repr

/-- The image body: the stored table and the stored CRC (R158). -/
structure ImageBody where
  table : Table
  crc   : Crc
deriving DecidableEq, Repr

/-- The image in non-volatile storage (R158). -/
structure Image where
  marker : Marker
  body   : ImageBody
deriving DecidableEq, Repr

/-- The image state of R158. -/
inductive ImageState where
  | empty
  | valid
  | validCommissioned
  | invalid
deriving DecidableEq, Repr

/-- The store operations by name (R158). -/
inductive StoreKind where
  | store
  | commission
  | erase
deriving DecidableEq, Repr

/-- The store operation in flight; a STORE holds the copy it writes (R158, R160). -/
inductive StoreOp where
  | none
  | store (table : Table) (crc : Crc)
  | commission
  | erase
deriving DecidableEq, Repr

/-- The results of a store operation (R159). -/
inductive StoreResult where
  | done
  | verifyFail
  | timeout
deriving DecidableEq, Repr

/-- The image store's state (R158). -/
structure ImageStore where
  image : Image
  state : ImageState
  op    : StoreOp
  timer : Timer
deriving DecidableEq, Repr

/-! ## The report unit (chapter 09) -/

/-- The notices of R153, with their contents. -/
inductive Notice where
  | headState (head : HeadId) (state : HeadState) (cause : HeadCause)
  | headRocking (head : HeadId) (side : EntrySide)
  | headTemperature (head : HeadId) (alarm : Bool)
  | identityLearned (head : HeadId) (identity : Identity)
  | gapBridged (head : HeadId) (missing : Nat)
  | linkState (link : LinkId) (state : LinkState) (polarity : Polarity)
  | relayResult (link : LinkId) (target : RelayTarget) (station : Octet) (code : RelayCode)
      (tag : BitVec 4) (result : RelayResult)
  | tableActivated (crc : Crc) (disturbed : Nat)
  | storeResult (op : StoreKind) (result : StoreResult) (state : ImageState) (crc : Option Crc)
deriving DecidableEq, Repr

/-- A mirror: the link number and the octets of the head telegram from its address octet through its
last CRC octet (R60, R154). -/
structure Mirror where
  link   : LinkId
  octets : List Octet
deriving DecidableEq, Repr

/-- The four telegrams of the count-line transmitter (R155). -/
inductive UpKind where
  | reply
  | report
  | notice
  | mirror
deriving DecidableEq, Repr

/-- The telegram on CTXD: its kind, its octets, and which of the two flags its header carried set
(R152, R155). -/
structure UpTelegram where
  kind             : UpKind
  octets           : List Octet
  notedOverrun     : Bool
  notedHoldExpired : Bool
deriving DecidableEq, Repr

/-- The report unit's state (R149 to R157). -/
structure ReportUnit where
  queue            : List SectionId
  notices          : List Notice
  overrun          : Bool
  overrunAgain     : Bool
  holdExpired      : Bool
  holdExpiredAgain : Bool
  mirrors          : List Mirror
  held             : Bool
  holdTimer        : Timer
  cycleTimer       : Timer
  transmitter      : Option UpTelegram
deriving DecidableEq, Repr

/-! ## The part -/

/-- The input pins: the address straps, the rate strap, and what else holds the part in full reset
(0.6, R163). -/
structure Pins where
  address     : BitVec 4
  rate        : Rate
  powerOnHold : Bool
  resetHold   : Bool
deriving DecidableEq, Repr

/-- The part: its pins and its eight blocks (0.4). -/
structure Part where
  pins      : Pins
  links     : Vector LinkRec 4
  heads     : Vector HeadRec 32
  decoders  : Vector DecoderRec 32
  evaluator : EvaluatorState
  sections  : Vector SectionRec 24
  tables    : TableManager
  count     : CountLine
  report    : ReportUnit
  image     : ImageStore
deriving DecidableEq, Repr

/-- The state of the model: the part, and the commands that wait, first in, first out. -/
structure State extends Part where
  pending : List Instr
deriving DecidableEq, Repr

/-! ## Reset values -/

/-- R14. -/
def DecoderRec.reset : DecoderRec :=
  { phase := .free, side := .none, rock := 0, tallyAB := 0, tallyBA := 0 }

/-- R23. -/
def HeadRec.reset : HeadRec :=
  { state := .absent, baseline := none, run := 0, identityConfirmed := false, silence := .stopped
    health := none, learned := none, lastCause := .none }

/-- All bad-frame counters at 0 (R54). -/
def LinkCounts.zero : LinkCounts :=
  { syncMiss := 0, length := 0, charTimeout := 0, crc := 0, format := 0 }

/-- R54: link state OFF, and with it polarity NONE and receive condition WAIT. -/
def LinkRec.reset : LinkRec :=
  { mode := .off, run := 0, counts := .zero, strays := 0, repeats := 0, mirrorsDropped := 0
    latch := false, transmitter := none, queue := [], tag := 0, timer := .stopped }

/-- R93. -/
def SectionRec.reset : SectionRec :=
  { state := .absent, count := 0, number := 0, cause := .none, sweep := false, tally := 0
    latch := false, confirm := .stopped }

/-- R126. -/
def TableManager.reset : TableManager :=
  { active := none, staging := Table.blank, stagingState := .editing, lastCheck := .none }

/-- All bad-frame counts at 0 (R146). -/
def CountLineCounts.zero : CountLineCounts :=
  { syncMiss := 0, length := 0, charTimeout := 0, crc := 0 }

/-- R146. -/
def CountLine.reset : CountLine :=
  { rx := .wait, replies := [], dropped := 0, counts := .zero }

/-- R155. -/
def ReportUnit.reset : ReportUnit :=
  { queue := [], notices := [], overrun := false, overrunAgain := false, holdExpired := false
    holdExpiredAgain := false, mirrors := [], held := false, holdTimer := .stopped
    cycleTimer := .stopped, transmitter := none }

/-- The image body of a part that has never been written. R158 gives the marker BLANK and no body.
DESIGN CHOICE (log 1): blank records (R70) and stored CRC 0000. -/
def ImageBody.unwritten : ImageBody := { table := Table.blank, crc := 0 }

/-- R158: the image of a part that has never been written. -/
def Image.unwritten : Image := { marker := .blank, body := ImageBody.unwritten }

/-- Every block at its reset values; a full reset changes neither the pins nor the image, and the
image state is set by the start-up sequence that ends it (R158, R163). What the image state is until
then the spec leaves open (log 22). -/
def Part.resetValues (pins : Pins) (image : Image) (state : ImageState) : Part :=
  { pins := pins
    links := Vector.replicate 4 LinkRec.reset
    heads := Vector.replicate 32 HeadRec.reset
    decoders := Vector.replicate 32 DecoderRec.reset
    evaluator := .unconfigured
    sections := Vector.replicate 24 SectionRec.reset
    tables := TableManager.reset
    count := CountLine.reset
    report := ReportUnit.reset
    image := { image := image, state := state, op := .none, timer := .stopped } }

/-- The pins right after reset. DESIGN CHOICE (log 2): part address 1 and the low rate; the spec
gives the straps no value. No hold stands, since the full reset has ended. -/
def Pins.afterReset : Pins :=
  { address := 1, rate := .low, powerOnHold := false, resetHold := false }

/-- The machine right after reset: the full reset of a part that has never been written has ended,
and its start-up sequence found the image EMPTY and loaded no table (R158, R163; log 1). -/
def State.reset : State :=
  { toPart := Part.resetValues Pins.afterReset Image.unwritten .empty
    pending := [] }

/-- The faults of the block. The spec gives no event that stops the part, so no meaning raises a
fault and the type has no constructor. This is safe: nothing is proved from a stop that cannot be. -/
inductive Fault
deriving DecidableEq, Repr

/-- The refusals of the block. -/
inductive Refusal where
  /-- A command whose meaning is not modelled yet, by its mnemonic. Raised by an arm of `exec` that
  rejects its command by name, and by nothing else; no arm does. Safe: the model stops. -/
  | notModelled (mnemonic : String)
deriving DecidableEq, Repr

end Sys2Proof.Machine
end

