-- ==== Sys2Proof/Machine/Flags.lean ====
section
/-! DEFINITION. The computations of counts, flags and latches that many commands share: saturating
counters, the overrun and hold-expired flags with their set-again marks (R152), the notice offer that
sets one of them (R153), and the marks of the report queue (R149). -/

namespace Sys2Proof.Machine

/-- One more, up to a largest value, where it stays (0.7.1, "saturating"). -/
def raiseTo (largest n : Nat) : Nat := min (n + 1) largest

/-- A counter of 0 to 65 535 (R54, R141). -/
def raise16 (n : Nat) : Nat := raiseTo 65535 n

/-- A counter of 0 to 255 (R92, R145). -/
def raise8 (n : Nat) : Nat := raiseTo 255 n

/-- The telegram on the line carried the overrun flag set (R152). -/
def ReportUnit.overrunNoted (r : ReportUnit) : Bool :=
  match r.transmitter with
  | some t => t.notedOverrun
  | none => false

/-- The telegram on the line carried the hold-expired flag set (R152). -/
def ReportUnit.holdExpiredNoted (r : ReportUnit) : Bool :=
  match r.transmitter with
  | some t => t.notedHoldExpired
  | none => false

/-- A notice is lost: the overrun flag, or its set-again mark during a transmission that carries the
flag (R152, R153). -/
def ReportUnit.setOverrun (r : ReportUnit) : ReportUnit :=
  if r.overrunNoted then { r with overrunAgain := true } else { r with overrun := true }

/-- A hold-limit expiry: the hold-expired flag, or its set-again mark (R152, R157). -/
def ReportUnit.setHoldExpired (r : ReportUnit) : ReportUnit :=
  if r.holdExpiredNoted then { r with holdExpiredAgain := true } else { r with holdExpired := true }

/-- The flags at the last octet of a telegram that noted them: each is cleared, and set again where
its mark is set; the mark is cleared (R152). -/
def ReportUnit.settleFlags (r : ReportUnit) : ReportUnit :=
  { r with
    overrun := if r.overrunNoted then r.overrunAgain else r.overrun
    overrunAgain := if r.overrunNoted then false else r.overrunAgain
    holdExpired := if r.holdExpiredNoted then r.holdExpiredAgain else r.holdExpired
    holdExpiredAgain := if r.holdExpiredNoted then false else r.holdExpiredAgain }

/-- The notice queue holds 0 to 16 notices (R153). -/
def noticeCapacity : Nat := 16

/-- The mirror buffer holds 0 to 4 mirrors (R154). -/
def mirrorCapacity : Nat := 4

/-- The reply buffer holds 0 to 2 replies (R145). -/
def replyCapacity : Nat := 2

/-- A relay queue holds 0 to 2 commands (R62). -/
def relayCapacity : Nat := 2

/-- Offers a notice: it joins at the back, or with 16 in the queue it is lost (R153). -/
def ReportUnit.offer (r : ReportUnit) (n : Notice) : ReportUnit :=
  if r.notices.length < noticeCapacity then { r with notices := r.notices ++ [n] }
  else r.setOverrun

/-- Marks a section: its number joins at the back unless it is queued already (R149). -/
def ReportUnit.mark (r : ReportUnit) (i : SectionId) : ReportUnit :=
  if i ∈ r.queue then r else { r with queue := r.queue ++ [i] }

/-- Whether a mirror offered finds the mirror buffer full (R154). -/
def ReportUnit.mirrorsFull (r : ReportUnit) : Bool := decide (mirrorCapacity ≤ r.mirrors.length)

end Sys2Proof.Machine
end

