-- ==== Sys2Proof/Machine/Operands.lean ====
section
/-! DEFINITION. The forms of every operand: the codes of named values, the CRC, the layouts of
chapter 11, the form judgements of R53 and R143, and the ways the blocks read the active table. -/

namespace Sys2Proof.Machine

/-! ## Codes of named values (R164)

A named value is coded by its place in the list that defines it, counting from 1, or from 0 where
the list begins with NONE. The phases keep their values 0 to 3. -/

/-- R164, 0.7.3. -/
def codePhase : Phase → Octet
  | .free => 0
  | .aOnly => 1
  | .bOnly => 2
  | .both => 3

/-- R164, 0.7.3. -/
def phaseOf (bits : BitVec 2) : Phase :=
  if bits = 0 then .free else if bits = 1 then .aOnly else if bits = 2 then .bOnly else .both

/-- R2, R164: NONE 0; and R167: side A 1, B 2. -/
def codeSide : EntrySide → Octet
  | .none => 0
  | .a => 1
  | .b => 2

/-- R168: AB 1, BA 2. -/
def codeDir : Dir → Octet
  | .ab => 1
  | .ba => 2

/-- R22. -/
def codeHeadState : HeadState → Octet
  | .absent => 1
  | .acquiring => 2
  | .inService => 3
  | .failed => 4

/-- R22. -/
def codeHeadCause : HeadCause → Octet
  | .none => 0
  | .silence => 1
  | .sequenceLoss => 2
  | .phaseError => 3
  | .sensorLow => 4
  | .supplyAlarm => 5
  | .identityMismatch => 6
  | .headRestarted => 7
  | .linkLost => 8

/-- R54. -/
def codeLinkState : LinkState → Octet
  | .off => 1
  | .search => 2
  | .locked => 3

/-- R54: NONE 0, DIRECT 1, INVERTED 2. -/
def codePolarity : Option Polarity → Octet
  | none => 0
  | some .direct => 1
  | some .inverted => 2

/-- A whole octet, coded from 1 (R166). -/
def codeRelayCode : RelayCode → Octet
  | .restart => 1
  | .healthRequest => 2

/-- R143: a logical head 1, a link with broadcast 2. -/
def codeTargetForm : RelayTarget → Octet
  | .head _ => 1
  | .broadcast => 2

/-- R167. -/
def codeRelayResult : RelayResult → Octet
  | .done => 1
  | .noEcho => 2
  | .sent => 3
  | .cancelled => 4

/-- R88. -/
def codeEvaluator : EvaluatorState → Octet
  | .unconfigured => 1
  | .halted => 2
  | .running => 3

/-- R92. -/
def codeSectionState : SectionState → Octet
  | .absent => 1
  | .clear => 2
  | .occupied => 3
  | .clearing => 4
  | .restoring => 5
  | .disturbed => 6

/-- R92, R167: the cause, and for HEAD_FAILED its head and head cause, else zeros. -/
def codeCause : Cause → List Octet
  | .none => [0, 0, 0]
  | .startUp => [1, 0, 0]
  | .halt => [2, 0, 0]
  | .headFailed h c => [3, BitVec.ofNat 8 h.val, codeHeadCause c]
  | .underflow => [4, 0, 0]
  | .overflow => [5, 0, 0]
  | .reconfigured => [6, 0, 0]

/-- R125. -/
def codeStagingState : StagingState → Octet
  | .editing => 1
  | .checked _ => 2

/-- R166: C1 to C8 as 1 to 8. -/
def codeCheck : CheckCode → Octet
  | .c1 => 1
  | .c2 => 2
  | .c3 => 3
  | .c4 => 4
  | .c5 => 5
  | .c6 => 6
  | .c7 => 7
  | .c8 => 8

/-- R69. -/
def codeRecordKind : RecordKind → Octet
  | .global => 1
  | .head => 2
  | .sectionRecord => 3

/-- R69, R164. -/
def recordKindOf (code : Octet) : Option RecordKind :=
  if code = 1 then some .global else if code = 2 then some .head
  else if code = 3 then some .sectionRecord else none

/-- R158. -/
def codeImageState : ImageState → Octet
  | .empty => 1
  | .valid => 2
  | .validCommissioned => 3
  | .invalid => 4

/-- R158. -/
def codeStoreKind : StoreKind → Octet
  | .store => 1
  | .commission => 2
  | .erase => 3

/-- R158: NONE 0. -/
def codeStoreOp : StoreOp → Octet
  | .none => 0
  | .store _ _ => codeStoreKind .store
  | .commission => codeStoreKind .commission
  | .erase => codeStoreKind .erase

/-- R167. -/
def codeStoreResult : StoreResult → Octet
  | .done => 1
  | .verifyFail => 2
  | .timeout => 3

/-- R147: 1 to 10 in the order of the reason table. -/
def codeReason : Reason → Octet
  | .state => 1
  | .range => 2
  | .stale => 3
  | .busy => 4
  | .notPermitted => 5
  | .headsNotReady => 6
  | .notChecked => 7
  | .crcMismatch => 8
  | .commissioned => 9
  | .format => 10

/-- R166: octets 3 and 4 of a reply. -/
def codeOutcome : ReplyOutcome → List Octet
  | .done => [1, 0]
  | .accepted => [2, 0]
  | .refused r => [3, codeReason r]

/-- R164: a flag in one octet. -/
def codeFlag (b : Bool) : Octet := if b then 1 else 0

/-- R164: high octet first. -/
def octets16 (v : BitVec 16) : List Octet := [v.extractLsb' 8 8, v.extractLsb' 0 8]

/-- R164: high octet first. -/
def octets24 (v : BitVec 24) : List Octet :=
  [v.extractLsb' 16 8, v.extractLsb' 8 8, v.extractLsb' 0 8]

/-- A count in one octet (R166). -/
def octetOf (n : Nat) : Octet := BitVec.ofNat 8 n

/-- A count that can exceed 255, in two octets (R166). -/
def twoOctets (n : Nat) : List Octet := octets16 (BitVec.ofNat 16 n)

/-- R164: a value given "or none" follows a presence octet; an absent value is sent as zeros. -/
def optional (width : Nat) : Option (List Octet) → List Octet
  | none => 0 :: List.replicate width 0
  | some value => 1 :: value

/-! ## Numbers in octets -/

/-- The logical head an octet names, 0 to 31. -/
def headOf (o : Octet) : Option HeadId := if h : o.toNat < 32 then some ⟨o.toNat, h⟩ else none

/-- The section an octet names, 0 to 23. -/
def sectionOf (o : Octet) : Option SectionId := if h : o.toNat < 24 then some ⟨o.toNat, h⟩ else none

/-- The head link an octet names, 0 to 3. -/
def linkOf (o : Octet) : Option LinkId := if h : o.toNat < 4 then some ⟨o.toNat, h⟩ else none

/-- The field at a place of a body, places counted from 0. -/
def field (body : List Octet) (place : Nat) : Octet := body.getD place 0

/-! ## The CRC (R86) -/

/-- One bit: the register shifts one place, and takes 1021 when the bit shifted out differs from the
data bit. -/
def crcBit (c : Crc) (data : Bool) : Crc :=
  if c.msb != data then (c <<< 1) ^^^ 0x1021#16 else c <<< 1

/-- One octet, most significant bit first. -/
def crcOctet (c : Crc) (o : Octet) : Crc :=
  [7, 6, 5, 4, 3, 2, 1, 0].foldl (fun c i => crcBit c (o.getLsbD i)) c

/-- `f c`, with `c` worked out first. It lets the kernel evaluate a long CRC octet by octet. -/
def withValue {α : Type} (c : Crc) (f : Crc → α) : α :=
  match c.toNat with
  | 0 => f 0#16
  | n + 1 => f (BitVec.ofNat 16 (n + 1))

/-- The register after a sequence of octets. -/
def crcFrom : List Octet → Crc → Crc
  | [], c => c
  | o :: os, c => withValue (crcOctet c o) (crcFrom os)

/-- R86: the register begins at FFFF and there is no final inversion. -/
def crc16 (octets : List Octet) : Crc := crcFrom octets 0xFFFF#16

/-! ## Framing (R50 to R52) -/

/-- SYNC (R50). -/
def sync : Octet := 0xA7

/-- SYNC with every bit inverted (R55). -/
def syncInverted : Octet := 0x58

/-- An octet as judged, or as sent, in a polarity (R55, R61). -/
def Polarity.apply : Polarity → Octet → Octet
  | .direct, o => o
  | .inverted, o => ~~~o

/-- The octets from the address octet to the last CRC octet of a telegram (R50). -/
def framed (address kind : Octet) (body : List Octet) : List Octet :=
  let covered := address :: octetOf (body.length + 3) :: kind :: body
  covered ++ octets16 (crc16 covered)

/-- A whole telegram, SYNC included (R50). -/
def telegram (address kind : Octet) (body : List Octet) : List Octet :=
  sync :: framed address kind body

/-- What the octets of a telegram after its SYNC amount to (R52). -/
inductive FrameVerdict where
  | more
  | badLength
  | badCrc
  | good
deriving DecidableEq, Repr

/-- R50: the CRC over all but the last two octets equals those two. -/
def passesCrc (octets : List Octet) : Bool :=
  octets.drop (octets.length - 2) == octets16 (crc16 (octets.take (octets.length - 2)))

/-- R52: the length octet is judged on arrival, the CRC at the last CRC octet. `octets` are those
after SYNC: address, length L, and then L octets. -/
def judgeFrame (octets : List Octet) : FrameVerdict :=
  match octets with
  | _ :: length :: rest =>
    if length.toNat < 4 ∨ 37 < length.toNat then .badLength
    else if rest.length < length.toNat then .more
    else if passesCrc octets then .good
    else .badCrc
  | _ => .more

/-- The address octet of a telegram's octets. -/
def addressOctet (octets : List Octet) : Octet := field octets 0

/-- The kind octet of a telegram's octets. -/
def kindOctet (octets : List Octet) : Octet := field octets 2

/-- The body of a telegram's octets: between the kind octet and the two CRC octets. -/
def bodyOctets (octets : List Octet) : List Octet := (octets.take (octets.length - 2)).drop 3

/-! ## Head link telegrams (R20, R53, R165) -/

/-- An echo (R20). -/
structure Echo where
  code : RelayCode
  tag  : BitVec 4
deriving DecidableEq, Repr

/-- The fields of a head status telegram (R20). -/
structure HeadTelegram where
  station     : Octet
  sequence    : BitVec 4
  restart     : Bool
  changeCount : BitVec 8
  phase       : Phase
  changes     : List Phase
  health      : Option Health
  echo        : Option Echo
deriving DecidableEq, Repr

/-- The health block of R165: none when a spare bit is set or an octet is missing. -/
def parseHealth : List Octet → Option Health
  | [levels, alarms, i1, i2, i3] =>
    if alarms.extractLsb' 2 6 = 0 then
      some { levelA := levels.extractLsb' 4 4, levelB := levels.extractLsb' 0 4
             supplyAlarm := alarms.getLsbD 1, temperatureAlarm := alarms.getLsbD 0
             identity := i1 ++ i2 ++ i3 }
    else none
  | _ => none

/-- The echo octet of R165, which codes RESTART as 0 and HEALTH_REQUEST as 1 (R164). -/
def parseEcho : List Octet → Option Echo
  | [e] =>
    if e.extractLsb' 4 3 = 0 then
      some { code := if e.getLsbD 7 then .healthRequest else .restart, tag := e.extractLsb' 0 4 }
    else none
  | _ => none

/-- The octet of a relay command's body, which the echo octet repeats (R165). -/
def relayOctet (code : RelayCode) (tag : BitVec 4) : Octet :=
  (match code with
    | .restart => 0x00#8
    | .healthRequest => 0x80#8) ||| tag.setWidth 8

/-- The change entries of R165: none when a spare bit is set. -/
def parseChanges (entries : List Octet) : Option (List Phase) :=
  if entries.all (fun e => e.extractLsb' 2 6 == 0) then
    some (entries.map (fun e => phaseOf (e.extractLsb' 0 2)))
  else none

/-- The form judgement of R53 over the layout of R165. `none` is a FORMAT bad frame: a spare bit, a
station outside 1 to 8, another kind, a list count above 6, a last entry that differs from the
present phase, or a length that differs from the one the fields declare. -/
def parseHeadStatus (address kind : Octet) (body : List Octet) : Option HeadTelegram :=
  match body with
  | flags :: changeCount :: phases :: rest =>
    let n := (phases.extractLsb' 0 3).toNat
    let h := if flags.getLsbD 2 then 5 else 0
    let e := if flags.getLsbD 1 then 1 else 0
    let phase := phaseOf (phases.extractLsb' 6 2)
    if address.toNat < 1 ∨ 8 < address.toNat ∨ kind ≠ 0x01 ∨ flags.getLsbD 0 = true ∨
        phases.extractLsb' 3 3 ≠ 0 ∨ 6 < n ∨ rest.length ≠ n + h + e then none
    else
      match parseChanges (rest.take n) with
      | none => none
      | some changes =>
        if changes ≠ [] ∧ changes.getLast? ≠ some phase then none
        else
          let blockOctets := (rest.drop n).take h
          let echoOctets := rest.drop (n + h)
          let health := parseHealth blockOctets
          let echo := parseEcho echoOctets
          if (h ≠ 0 ∧ health = none) ∨ (e ≠ 0 ∧ echo = none) then none
          else
            some { station := address, sequence := flags.extractLsb' 4 4
                   restart := flags.getLsbD 3, changeCount := changeCount, phase := phase
                   changes := changes, health := health, echo := echo }
  | _ => none

/-- The octets of a relay telegram as they stand on the wire of a link (R61, R165). -/
def relayTelegram (polarity : Polarity) (c : RelayCommand) : List Octet :=
  (telegram c.station 0x02 [relayOctet c.code c.tag]).map polarity.apply

/-! ## Table records (R168) -/

/-- Two nibbles in one octet. -/
def nibbles (high low : BitVec 4) : Octet := high ++ low

/-- R168, GLOBAL: 8 octets. -/
def encodeGlobal (g : GlobalRecord) : List Octet :=
  octets16 g.reportCycle ++ octets16 g.holdLimit ++
    [g.startMode,
     (codeFlag g.enabled[0]) ||| (codeFlag g.enabled[1] <<< 1) |||
       (codeFlag g.enabled[2] <<< 2) ||| (codeFlag g.enabled[3] <<< 3),
     nibbles g.threshold[0] g.threshold[1],
     nibbles g.threshold[2] g.threshold[3]]

/-- R168, GLOBAL: none for another octet count or a spare bit set. -/
def decodeGlobal : List Octet → Option GlobalRecord
  | [c1, c2, h1, h2, mode, enabled, t01, t23] =>
    if enabled.extractLsb' 4 4 = 0 then
      some { reportCycle := c1 ++ c2, holdLimit := h1 ++ h2, startMode := mode
             enabled := #v[enabled.getLsbD 0, enabled.getLsbD 1, enabled.getLsbD 2,
                           enabled.getLsbD 3]
             threshold := #v[t01.extractLsb' 4 4, t01.extractLsb' 0 4, t23.extractLsb' 4 4,
                             t23.extractLsb' 0 4] }
    else none
  | _ => none

/-- R168, HEAD: 11 octets. -/
def encodeHead (r : HeadRecord) : List Octet :=
  [codeFlag r.present ||| (codeFlag r.mirror <<< 1), r.link, r.station] ++
    octets24 r.expected ++ octets16 r.silenceTimeout ++
    [r.acquireCount, r.rockLimit, r.levelFloor]

/-- R168, HEAD: none for another octet count or a spare bit set. -/
def decodeHead : List Octet → Option HeadRecord
  | [flags, link, station, i1, i2, i3, s1, s2, acquire, rock, floor] =>
    if flags.extractLsb' 2 6 = 0 then
      some { present := flags.getLsbD 0, mirror := flags.getLsbD 1, link := link
             station := station, expected := i1 ++ i2 ++ i3, silenceTimeout := s1 ++ s2
             acquireCount := acquire, rockLimit := rock, levelFloor := floor }
    else none
  | _ => none

/-- The entries of a boundary list, two octets each (R168). -/
def decodeEntries : List Octet → List BoundaryEntry
  | head :: inward :: rest => { head := head, inward := inward } :: decodeEntries rest
  | _ => []

/-- R168, SECTION: 6 + 2n octets. -/
def encodeSection (r : SectionRecord) : List Octet :=
  (codeFlag r.present ||| (codeFlag r.directReset <<< 1)) ::
    (octets16 r.countLimit ++ octets16 r.confirmTime ++ [octetOf r.boundary.length] ++
      r.boundary.flatMap (fun e => [e.head, e.inward]))

/-- R168, SECTION: none for a list count above 4, another octet count or a spare bit set. -/
def decodeSection : List Octet → Option SectionRecord
  | flags :: l1 :: l2 :: c1 :: c2 :: n :: entries =>
    if flags.extractLsb' 2 6 = 0 ∧ n.toNat ≤ 4 ∧ entries.length = 2 * n.toNat then
      some { present := flags.getLsbD 0, directReset := flags.getLsbD 1
             countLimit := l1 ++ l2, confirmTime := c1 ++ c2
             boundary := decodeEntries entries }
    else none
  | _ => none

/-- The record encoding of a kind (R128, R168). -/
def decodeRecord (kind : RecordKind) (octets : List Octet) : Option TableRecord :=
  match kind with
  | .global => (decodeGlobal octets).map .global
  | .head => (decodeHead octets).map .head
  | .sectionRecord => (decodeSection octets).map .sectionRecord

/-- The record encoding (R129, R168). -/
def encodeRecord : TableRecord → List Octet
  | .global g => encodeGlobal g
  | .head r => encodeHead r
  | .sectionRecord r => encodeSection r

/-- R128 order 2: a number names a record of its kind. -/
def recordNumberInRange (kind : RecordKind) (number : Octet) : Bool :=
  match kind with
  | .global => number == 0
  | .head => (headOf number).isSome
  | .sectionRecord => (sectionOf number).isSome

/-- The canonical encoding of a table (R85): GLOBAL, HEAD 0 to 31, SECTION 0 to 23. -/
def encodeTable (t : Table) : List Octet :=
  encodeGlobal t.global ++ t.heads.toList.flatMap encodeHead ++
    t.sections.toList.flatMap encodeSection

/-- The CRC of a table (R85, R86). -/
def tableCrc (t : Table) : Crc := crc16 (encodeTable t)

/-- Replaces a record whole (R69, R128); a number out of range names no key. -/
def Table.withRecord (t : Table) (number : Octet) : TableRecord → Table
  | .global g => { t with global := g }
  | .head r =>
    match headOf number with
    | some h => { t with heads := t.heads.set h.val r h.isLt }
    | none => t
  | .sectionRecord r =>
    match sectionOf number with
    | some i => { t with sections := t.sections.set i.val r i.isLt }
    | none => t

/-- The record under a key (R129). -/
def Table.record (t : Table) (kind : RecordKind) (number : Octet) : TableRecord :=
  match kind with
  | .global => .global t.global
  | .head => .head (((headOf number).map fun h => t.heads[h]).getD HeadRecord.blank)
  | .sectionRecord =>
    .sectionRecord (((sectionOf number).map fun i => t.sections[i]).getD SectionRecord.blank)

/-! ## How the blocks read a table (R83, R84) -/

/-- A head record of the table. -/
def Table.headCfg (t : Table) (h : HeadId) : HeadRecord := t.heads[h]

/-- A section record of the table. -/
def Table.sectionCfg (t : Table) (i : SectionId) : SectionRecord := t.sections[i]

/-- A present head stands on a link and station. -/
def HeadRecord.standsAt (r : HeadRecord) (link : LinkId) (station : Octet) : Bool :=
  r.present && r.link.toNat == link.val && r.station == station

/-- The station map of R84. -/
def Table.stationMap (t : Table) (link : LinkId) (station : Octet) : Option HeadId :=
  (List.finRange 32).find? fun h => (t.headCfg h).standsAt link station

/-- The present heads of a link, in ascending number (R44, R57). -/
def Table.headsOfLink (t : Table) (link : LinkId) : List HeadId :=
  (List.finRange 32).filter fun h => (t.headCfg h).present && (t.headCfg h).link.toNat == link.val

/-- A boundary list names a head. -/
def SectionRecord.names (r : SectionRecord) (h : HeadId) : Bool :=
  r.boundary.any fun e => e.head.toNat == h.val

/-- The inward direction, as coded, that a section's boundary list gives a head. -/
def SectionRecord.inwardAt (r : SectionRecord) (h : HeadId) : Option Octet :=
  (r.boundary.find? fun e => e.head.toNat == h.val).map (·.inward)

/-- The boundary index of R84: the present sections that name the head, in ascending number, each
with the head's inward direction. -/
def Table.boundaryIndex (t : Table) (h : HeadId) : List (SectionId × Octet) :=
  (List.finRange 24).filterMap fun i =>
    if (t.sectionCfg i).present then ((t.sectionCfg i).inwardAt h).map (fun d => (i, d)) else none

/-- The present sections in ascending number. -/
def Table.presentSections (t : Table) : List SectionId :=
  (List.finRange 24).filter fun i => (t.sectionCfg i).present

/-! ## The form of requests (R143, R166) -/

/-- The kind octets of the catalogue (R166). -/
def kindStatusQuery : Octet := 0x10
def kindSectionQuery : Octet := 0x11
def kindStart : Octet := 0x12
def kindHalt : Octet := 0x13
def kindSectionReset : Octet := 0x14
def kindHeadQuery : Octet := 0x15
def kindHeadRelease : Octet := 0x16
def kindHeadAdopt : Octet := 0x17
def kindLinkQuery : Octet := 0x18
def kindHeadRelay : Octet := 0x19
def kindTableWrite : Octet := 0x1A
def kindTableRead : Octet := 0x1B
def kindTableCopy : Octet := 0x1C
def kindTableCheck : Octet := 0x1D
def kindTableActivate : Octet := 0x1E
def kindStore : Octet := 0x1F
def kindCommission : Octet := 0x20
def kindEraseStore : Octet := 0x21
def kindHold : Octet := 0x22
def kindProceed : Octet := 0x23

/-- An octet codes one of the first `n` named values (R164, R166). -/
def namesOneOf (n : Nat) (o : Octet) : Bool := decide (1 ≤ o.toNat) && decide (o.toNat ≤ n)

/-- The form judgement of R143: the kind is of the catalogue, the length is the one the kind
requires (4 plus the field octets, at least 6 for TABLE WRITE; R166), and each named value holds a
code of its list. No request has spare bits of its own. -/
def requestForm (kind : Octet) (body : List Octet) : Bool :=
  if kind = kindSectionQuery ∨ kind = kindHeadQuery ∨ kind = kindHeadRelease ∨
      kind = kindHeadAdopt ∨ kind = kindLinkQuery then
    body.length == 2
  else if kind = kindSectionReset then
    body.length == 4 && namesOneOf 2 (field body 2)
  else if kind = kindHeadRelay then
    body.length == 4 && namesOneOf 2 (field body 1) && namesOneOf 2 (field body 3)
  else if kind = kindTableWrite then
    decide (3 ≤ body.length) && namesOneOf 3 (field body 1)
  else if kind = kindTableRead then
    body.length == 4 && namesOneOf 2 (field body 1) && namesOneOf 3 (field body 2)
  else if kind = kindTableActivate then
    body.length == 3
  else if kind = kindStatusQuery ∨ kind = kindStart ∨ kind = kindHalt ∨ kind = kindTableCopy ∨
      kind = kindTableCheck ∨ kind = kindStore ∨ kind = kindCommission ∨ kind = kindEraseStore ∨
      kind = kindHold ∨ kind = kindProceed then
    body.length == 1
  else false

/-! ## Notices, reports and replies on the count line (R151, R166, R167) -/

/-- An entry of a notice telegram without its padding (R167). The kind is coded in the order of the
table of R153. -/
def encodeNotice : Notice → List Octet
  | .headState h st c => [1, octetOf h.val, codeHeadState st, codeHeadCause c]
  | .headRocking h side => [2, octetOf h.val, codeSide side]
  | .headTemperature h alarm => [3, octetOf h.val, codeFlag alarm]
  | .identityLearned h id => [4, octetOf h.val] ++ octets24 id
  | .gapBridged h k => [5, octetOf h.val, octetOf k]
  | .linkState l st pol => [6, octetOf l.val, codeLinkState st, codePolarity (some pol)]
  | .relayResult l target station code tag result =>
    [7, octetOf l.val, codeTargetForm target,
      (match target with
        | .head h => octetOf h.val
        | .broadcast => 0),
      station, codeRelayCode code, tag.setWidth 8, codeRelayResult result]
  | .tableActivated crc n => [8] ++ octets16 crc ++ [octetOf n]
  | .storeResult op result st crc =>
    [9, codeStoreKind op, codeStoreResult result, codeImageState st] ++
      optional 2 (crc.map octets16)

/-- An entry of a notice telegram: 8 octets, those unused 0 (R167). -/
def noticeEntry (n : Notice) : List Octet :=
  encodeNotice n ++ List.replicate (8 - (encodeNotice n).length) 0

/-- An entry of a report telegram: 7 octets (R149, R167). -/
def reportEntry (i : SectionId) (r : SectionRec) : List Octet :=
  [octetOf i.val] ++
    octets16 (BitVec.ofBool r.latch ++ (codeSectionState r.state).extractLsb' 0 3 ++
      BitVec.ofNat 12 r.count) ++
    [r.number] ++ (if r.state = .disturbed then codeCause r.cause else [0, 0, 0])

/-- The body of a reply (R166). -/
def replyBody (r : Reply) : List Octet :=
  [r.tag, r.kind] ++ codeOutcome r.outcome ++ r.items

end Sys2Proof.Machine
end

