-- ==== Sys2Proof/Machine/Ops.lean ====
section
/-! DEFINITION. The named operations over the records of the part, each said once: reading and
writing a record, marking, offering a notice, disturbing a section, failing a head, changing a relay
queue, placing a reply. -/

namespace Sys2Proof.Machine

/-! ## Reading and writing records -/

/-- The record of a head. -/
def Part.head (p : Part) (h : HeadId) : HeadRec := p.heads[h]

/-- Writes the record of a head. -/
def Part.setHead (p : Part) (h : HeadId) (r : HeadRec) : Part :=
  { p with heads := p.heads.set h.val r h.isLt }

/-- The decoder record of a head. -/
def Part.decoder (p : Part) (h : HeadId) : DecoderRec := p.decoders[h]

/-- Writes the decoder record of a head. -/
def Part.setDecoder (p : Part) (h : HeadId) (r : DecoderRec) : Part :=
  { p with decoders := p.decoders.set h.val r h.isLt }

/-- The record of a section. -/
def Part.sec (p : Part) (i : SectionId) : SectionRec := p.sections[i]

/-- Writes the record of a section. -/
def Part.setSec (p : Part) (i : SectionId) (r : SectionRec) : Part :=
  { p with sections := p.sections.set i.val r i.isLt }

/-- The record of a link. -/
def Part.link (p : Part) (l : LinkId) : LinkRec := p.links[l]

/-- Writes the record of a link. -/
def Part.setLink (p : Part) (l : LinkId) (r : LinkRec) : Part :=
  { p with links := p.links.set l.val r l.isLt }

/-- Writes the report unit's state. -/
def Part.setReport (p : Part) (r : ReportUnit) : Part := { p with report := r }

/-- Writes the count line controller's state. -/
def Part.setCount (p : Part) (c : CountLine) : Part := { p with count := c }

/-- Writes the table manager's state. -/
def Part.setTables (p : Part) (t : TableManager) : Part := { p with tables := t }

/-- Writes the image store's state. -/
def Part.setImage (p : Part) (i : ImageStore) : Part := { p with image := i }

/-- Writes the evaluator state. -/
def Part.setEvaluator (p : Part) (e : EvaluatorState) : Part := { p with evaluator := e }

/-- Writes the pins. -/
def Part.setPins (p : Part) (pins : Pins) : Part := { p with pins := pins }

/-- The table the blocks read. In UNCONFIGURED there is no active table, and the blocks read it as
R83 says: no head and no section present, no link enabled; the blank table says the same. -/
def Part.activeTable (p : Part) : Table :=
  match p.tables.active with
  | some a => a.table
  | none => Table.blank

/-- The active table's record of a head (R73, R83). -/
def Part.headCfg (p : Part) (h : HeadId) : HeadRecord := p.activeTable.headCfg h

/-- The active table's record of a section (R74, R83). -/
def Part.sectionCfg (p : Part) (i : SectionId) : SectionRecord := p.activeTable.sectionCfg i

/-- The part address, as an address octet (R142). -/
def Part.ownAddress (p : Part) : Octet := p.pins.address.setWidth 8

/-- The part is held in full reset (R163). -/
def Part.inReset (p : Part) : Bool :=
  p.pins.powerOnHold || p.pins.resetHold || p.pins.address == 0

/-! ## Reports and notices -/

/-- Offers a notice to the report unit (R153). -/
def Part.offer (p : Part) (n : Notice) : Part := p.setReport (p.report.offer n)

/-- Marks a section for reporting (R109, R149). -/
def Part.mark (p : Part) (i : SectionId) : Part := p.setReport (p.report.mark i)

/-! ## Sections -/

/-- The entry into DISTURBED (R102), less the mark. The leave-without-entry tally is kept. -/
def SectionRec.disturb (r : SectionRec) (cause : Cause) : SectionRec :=
  { r with
    state := .disturbed, count := 0, confirm := .stopped, sweep := false, cause := cause
    number := r.number + 1
    latch := r.latch || decide (r.state = .clear) }

/-- A section enters DISTURBED and is marked (R102). -/
def Part.disturb (p : Part) (i : SectionId) (cause : Cause) : Part :=
  (p.setSec i ((p.sec i).disturb cause)).mark i

/-- A section enters DISTURBED unless it is DISTURBED already (R91, R104). -/
def Part.disturbUnlessDisturbed (p : Part) (i : SectionId) (cause : Cause) : Part :=
  if (p.sec i).state = .disturbed then p else p.disturb i cause

/-- The out-of-service signal of R43, applied by R104 to each section of the head's boundary index. -/
def Part.outOfService (p : Part) (h : HeadId) (cause : HeadCause) : Part :=
  (p.activeTable.boundaryIndex h).foldl
    (fun q item => q.disturbUnlessDisturbed item.1 (.headFailed h cause)) p

/-! ## Heads -/

/-- The decoder resets of R15 and R16: FREE, NONE and rock count 0, with the tallies kept. -/
def DecoderRec.rest (d : DecoderRec) : DecoderRec :=
  { d with phase := .free, side := .none, rock := 0 }

/-- Offers HEAD_STATE with the state and last fail cause standing after the change (R46). -/
def Part.offerHeadState (p : Part) (h : HeadId) : Part :=
  p.offer (.headState h (p.head h).state (p.head h).lastCause)

/-- The head record's part of a failure (R42). -/
def HeadRec.fail (r : HeadRec) (cause : HeadCause) : HeadRec :=
  { r with
    state := .failed, lastCause := cause, silence := .stopped, run := 0
    identityConfirmed := false }

/-- A head fails (R42). A head that leaves IN_SERVICE also has its decoder reset (R16) and sends its
out-of-service signal (R43). -/
def Part.failHead (p : Part) (h : HeadId) (cause : HeadCause) : Part :=
  let wasInService := (p.head h).state = .inService
  let failed := (p.setHead h ((p.head h).fail cause)).offerHeadState h
  if wasInService then
    (failed.setDecoder h (failed.decoder h).rest).outOfService h cause
  else failed

/-- The admission run begins again: run 0, identity-confirmed flag clear (R27, R29, R30, R33, R34). -/
def HeadRec.restartRun (r : HeadRec) : HeadRec := { r with run := 0, identityConfirmed := false }

/-! ## Relay queues -/

/-- The notice RELAY_RESULT of a command (R68). -/
def relayNotice (l : LinkId) (c : RelayCommand) (result : RelayResult) : Notice :=
  .relayResult l c.target c.station c.code c.tag result

/-- Offers RELAY_RESULT for each command of a list, in order. -/
def Part.offerRelayResults (p : Part) (l : LinkId) (result : RelayResult) :
    List RelayCommand → Part
  | [] => p
  | c :: cs => (p.offer (relayNotice l c result)).offerRelayResults l result cs

/-- Removes the queue head with a result: the relay timer stops and RELAY_RESULT is offered (R64 to
R66). -/
def Part.completeRelay (p : Part) (l : LinkId) (result : RelayResult) : Part :=
  match (p.link l).queue with
  | [] => p.setLink l { p.link l with timer := .stopped }
  | c :: rest =>
    (p.setLink l { p.link l with queue := rest, timer := .stopped }).offer (relayNotice l c result)

/-- Cancels the commands a test picks, whatever their stage, in queue order; a cancelled queue head
has its relay timer stopped (R67). -/
def Part.cancelRelays (p : Part) (l : LinkId) (picked : RelayCommand → Bool) : Part :=
  let k := p.link l
  let timer :=
    match k.queue with
    | c :: _ => if picked c then .stopped else k.timer
    | [] => k.timer
  (p.setLink l { k with queue := k.queue.filter (fun c => !picked c), timer := timer }).offerRelayResults
    l .cancelled (k.queue.filter picked)

/-! ## Replies -/

/-- What an owning block returns for a request: an outcome and the octets of its items (R144). -/
structure Answer where
  outcome : ReplyOutcome
  items   : List Octet
deriving DecidableEq, Repr

/-- A REFUSED answer that carries no items. -/
def refuse (reason : Reason) : Answer := { outcome := .refused reason, items := [] }

/-- A DONE answer with its items. -/
def done (items : List Octet) : Answer := { outcome := .done, items := items }

/-- An ACCEPTED answer with its items. -/
def accepted (items : List Octet) : Answer := { outcome := .accepted, items := items }

/-- Places a reply at the back of the reply buffer (R144). -/
def Part.placeReply (p : Part) (tag kind : Octet) (a : Answer) : Part :=
  p.setCount { p.count with
    replies := p.count.replies ++
      [{ tag := tag, kind := kind, outcome := a.outcome, items := a.items }] }

/-! ## Running a command -/

/-- The effect of an event on a part that is held in full reset is none: no receiver takes octets,
no timer runs and no transmitter starts until the start-up sequence (R141, R163). -/
def Part.unlessReset (p : Part) (f : Part → Part) : Part := if p.inReset then p else f p

end Sys2Proof.Machine
end

