-- ==== Sys2Proof/Machine/Transmitter.lean ====
section
/-! DEFINITION. The count-line transmitter (R151, R155): the composition of telegrams, the choice among
what waits, and the end of every event, at which an idle transmitter starts what has begun to wait. -/

namespace Sys2Proof.Machine

/-! ## Composition (R149, R151, R154) -/

/-- The header of a report or notice telegram (R151, R167). -/
def Part.reportHeader (p : Part) (waiting : Nat) : List Octet :=
  [codeEvaluator p.evaluator,
    codeFlag p.report.overrun ||| (codeFlag p.report.holdExpired <<< 1), octetOf waiting]

/-- The report telegram reads a section's entry: the section's latch is cleared (R108, R149). -/
def Part.readLatch (p : Part) (i : SectionId) : Part :=
  p.setSec i { p.sec i with latch := false }

/-- Puts a telegram on the line (R155). The address octet is the part address read when the
transmission starts (R142). Report and notice telegrams note the flags they carry set, and composing
one clears both set-again marks (R152). -/
def Part.transmit (p : Part) (kind : UpKind) (octet : Octet) (body : List Octet) : Part :=
  let noting := decide (kind = .report) || decide (kind = .notice)
  p.setReport { p.report with
    transmitter := some
      { kind := kind, octets := telegram p.ownAddress octet body
        notedOverrun := noting && p.report.overrun
        notedHoldExpired := noting && p.report.holdExpired }
    overrunAgain := if noting then false else p.report.overrunAgain
    holdExpiredAgain := if noting then false else p.report.holdExpiredAgain }

/-- Starts the reply at the front, which stays in the buffer until its last octet (R145, R155). -/
def Part.sendReply (p : Part) (r : Reply) : Part := p.transmit .reply 0x40 (replyBody r)

/-- A report telegram takes 1 to 4 entries (R151). -/
def reportEntries : Nat := 4

/-- A notice telegram takes 1 to 3 notices (R151). -/
def noticeEntries : Nat := 3

/-- Composes and starts a report telegram of the entries given, with the rest left queued (R151). -/
def Part.sendReport (p : Part) : Part :=
  let taken := p.report.queue.take reportEntries
  let body := p.reportHeader p.report.notices.length ++
    taken.flatMap fun i => reportEntry i (p.sec i)
  let read := taken.foldl (fun q i => q.readLatch i) p
  (read.setReport { read.report with queue := p.report.queue.drop reportEntries }).transmit
    .report 0x41 body

/-- Composes and starts a notice telegram (R151). -/
def Part.sendNotices (p : Part) : Part :=
  let left := p.report.notices.drop noticeEntries
  let body := p.reportHeader left.length ++
    (p.report.notices.take noticeEntries).flatMap noticeEntry
  (p.setReport { p.report with notices := left }).transmit .notice 0x42 body

/-- Starts a mirror telegram of the mirror given, the rest left in the buffer (R154). -/
def Part.sendMirror (p : Part) (m : Mirror) (rest : List Mirror) : Part :=
  (p.setReport { p.report with mirrors := rest }).transmit .mirror 0x43
    (octetOf m.link.val :: m.octets)

/-! ## The choice of the transmitter (R155) -/

/-- The choice among reports, notices and mirrors while the line is not held. -/
def Part.chooseUnheld (p : Part) : Part :=
  if p.report.queue ≠ [] then p.sendReport
  else if p.report.notices ≠ [] then p.sendNotices
  else
    match p.report.mirrors with
    | m :: rest => p.sendMirror m rest
    | [] => p

/-- The first that waits is chosen and starts: the front reply, then, when the line is not held, a
report, a notice or a mirror telegram (R155). -/
def Part.choose (p : Part) : Part :=
  match p.count.replies with
  | r :: _ => p.sendReply r
  | [] => if p.report.held then p else p.chooseUnheld

/-- An idle transmitter chooses and starts; a busy one goes on (R155). -/
def Part.startTransmission (p : Part) : Part :=
  match p.report.transmitter with
  | some _ => p
  | none => p.choose

/-! ## The end of an event -/

/-- What follows an event that has been taken whole: an idle transmitter starts at once what the event
has placed or released, and reads the records as the event left them (R155). -/
def Part.afterEvent (p : Part) : Part := p.unlessReset Part.startTransmission

/-- The state after an event that has been taken whole (R155). -/
def State.afterEvent (s : State) : State := { s with toPart := s.toPart.afterEvent }

/-- The next state: the part as the event left it, and then what starts at once (R155); the queue of
commands as it stands. -/
def State.next (s : State) (p : Part) : Host.Outcome State Fault Refusal :=
  .next (State.afterEvent { s with toPart := p })

end Sys2Proof.Machine
end

