-- ==== Sys2Proof/Machine/Sections.lean ====
section
/-! DEFINITION. The section evaluator: wheel events, confirm expiry, START, HALT, SECTION QUERY
(chapter 05) and SECTION RESET (chapter 06). -/

namespace Sys2Proof.Machine

/-! ## Wheel events -/

/-- The count of a section falls from 1 to 0: to CLEARING with its confirm timer, or to CLEAR with a
confirm time of 0 (R97, R100, R120). The sweep flag is cleared (R120); in OCCUPIED it is clear. -/
def SectionRec.emptied (cfg : SectionRecord) (r : SectionRec) : SectionRec :=
  if 0 < cfg.confirmTime.toNat then
    { r with count := 0, sweep := false, state := .clearing
             confirm := .running cfg.confirmTime.toNat }
  else { r with count := 0, sweep := false, state := .clear }

/-- An inward wheel event, and whether the section is marked (R95, R96, R98, R99, R117). -/
def SectionRec.inward (cfg : SectionRecord) (r : SectionRec) : SectionRec × Bool :=
  match r.state with
  | .clear => ({ r with state := .occupied, count := 1, latch := true }, true)
  | .occupied =>
    if r.count < cfg.countLimit.toNat then ({ r with count := r.count + 1 }, true)
    else (r.disturb .overflow, true)
  | .clearing => ({ r with state := .occupied, count := 1, confirm := .stopped }, true)
  | .restoring =>
    if r.count < cfg.countLimit.toNat then
      ({ r with count := r.count + 1, sweep := true }, true)
    else (r.disturb .overflow, true)
  | .disturbed => (r, false)
  | .absent => (r, false)

/-- An outward wheel event, and whether the section is marked (R95, R97, R98, R99, R118, R119). DESIGN
CHOICE (log 14): in RESTORING with count 1 and the sweep flag clear, of which R118 says that it does not
arise, the sweep completes. -/
def SectionRec.outward (cfg : SectionRecord) (r : SectionRec) : SectionRec × Bool :=
  match r.state with
  | .clear => (r.disturb .underflow, true)
  | .occupied =>
    if 1 < r.count then ({ r with count := r.count - 1 }, true) else (r.emptied cfg, true)
  | .clearing => (r.disturb .underflow, true)
  | .restoring =>
    if 1 < r.count then ({ r with count := r.count - 1 }, true)
    else if r.count = 1 then (r.emptied cfg, true)
    else ({ r with tally := raise8 r.tally }, false)
  | .disturbed => (r, false)
  | .absent => (r, false)

/-- A wheel event at one section, inward or outward (R94). -/
def SectionRec.wheel (cfg : SectionRecord) (inward : Bool) (r : SectionRec) : SectionRec × Bool :=
  if inward then r.inward cfg else r.outward cfg

/-- Applies a wheel event to a section, and marks it when it changes (R94, R109). -/
def Part.applyWheel (p : Part) (i : SectionId) (inward : Bool) : Part :=
  let result := (p.sec i).wheel (p.sectionCfg i) inward
  let q := p.setSec i result.1
  if result.2 then q.mark i else q

/-- A wheel event at a head. In RUNNING it is applied to each section of the head's boundary index,
inward where its direction is the section's inward direction at the head (R75, R89, R94). -/
def Part.wheelEvent (p : Part) (h : HeadId) (d : Dir) : Part :=
  if p.evaluator = .running then
    (p.activeTable.boundaryIndex h).foldl
      (fun q item => q.applyWheel item.1 (codeDir d == item.2)) p
  else p

/-! ## Confirm expiry -/

/-- CONFIRM_EXPIRY: a section in CLEARING whose confirm timer runs goes to CLEAR and is marked
(R101). A timer that does not run has no expiry (R1). -/
def Part.confirmExpiry (p : Part) (i : SectionId) : Part :=
  let r := p.sec i
  match r.confirm with
  | .stopped => p
  | .running _ =>
    if r.state = .clearing then
      (p.setSec i { r with state := .clear, confirm := .stopped }).mark i
    else p.setSec i { r with confirm := .stopped }

/-- CONFIRM_EXPIRY (R101). -/
def execConfirmExpiry (i : SectionId) (s : State) : Host.Outcome State Fault Refusal :=
  s.next (s.toPart.unlessReset fun p => p.confirmExpiry i)

/-! ## Requests -/

/-- START (R90). -/
def startRequest (_body : List Octet) (p : Part) : Part × Answer :=
  if p.evaluator = .halted then (p.setEvaluator .running, done [])
  else (p, refuse .state)

/-- HALT: the present sections not DISTURBED enter it in ascending number (R91). -/
def haltRequest (_body : List Octet) (p : Part) : Part × Answer :=
  if p.evaluator = .running then
    (p.activeTable.presentSections.foldl (fun q i => q.disturbUnlessDisturbed i .halt)
      (p.setEvaluator .halted), done [])
  else (p, refuse .state)

/-- The confirm timer in SECTION QUERY: running or not, and the milliseconds left (R166). -/
def timerItem : Timer → List Octet
  | .stopped => [0, 0, 0]
  | .running left => 1 :: twoOctets left

/-- SECTION QUERY (R110). -/
def sectionQueryRequest (body : List Octet) (p : Part) : Part × Answer :=
  match sectionOf (field body 1) with
  | none => (p, refuse .range)
  | some i =>
    let r := p.sec i
    (p, done ([codeEvaluator p.evaluator, codeFlag (p.sectionCfg i).present,
        codeSectionState r.state] ++ twoOctets r.count ++ [r.number] ++ codeCause r.cause ++
        [codeFlag r.sweep, octetOf r.tally, codeFlag r.latch] ++ timerItem r.confirm))

/-- The lowest-numbered head of a boundary list that is not IN_SERVICE (R113). -/
def Part.headNotReady (p : Part) (cfg : SectionRecord) : Option HeadId :=
  (List.finRange 32).find? fun h => cfg.names h && !decide ((p.head h).state = .inService)

/-- SECTION RESET: the checks of R111 in their order, and acceptance by R114 (mode SWEEP, coded 1)
or R115 (mode DIRECT, coded 2). -/
def sectionResetRequest (body : List Octet) (p : Part) : Part × Answer :=
  if p.evaluator ≠ .running then (p, refuse .state)
  else
    match sectionOf (field body 1) with
    | none => (p, refuse .range)
    | some i =>
      let r := p.sec i
      let cfg := p.sectionCfg i
      if cfg.present = false then (p, refuse .range)
      else if r.state ≠ .disturbed then (p, refuse .state)
      else if field body 3 ≠ r.number then
        (p, { outcome := .refused .stale, items := [r.number] })
      else
        match p.headNotReady cfg with
        | some h =>
          (p, { outcome := .refused .headsNotReady
                items := [octetOf h.val, codeHeadState (p.head h).state] })
        | none =>
          if field body 2 = 1 then
            ((p.setSec i { r with state := .restoring, tally := 0 }).mark i,
              done [octetOf i.val, codeSectionState .restoring, r.number])
          else if cfg.directReset = false then (p, refuse .notPermitted)
          else
            ((p.setSec i { r with state := .clear }).mark i,
              done [octetOf i.val, codeSectionState .clear, r.number])

end Sys2Proof.Machine
end

