-- ==== Sys2Proof/Machine/Heads.lean ====
section
/-! DEFINITION. The phase decoders (chapter 01) and the head supervisor (chapter 02): judgement of
change entries, the eight steps of a telegram, silence expiry, link loss, and HEAD QUERY, HEAD
RELEASE and HEAD ADOPT. -/

namespace Sys2Proof.Machine

/-! ## The phase decoder -/

/-- What a decoder returns for a change entry (R4). `rocking` is a rock return whose raised count
reached the rock limit, with its side (R8). -/
inductive EntryResult where
  | moved
  | wheel (direction : Dir)
  | rockReturn
  | rocking (side : EntrySide)
  | phaseError
deriving DecidableEq, Repr

/-- A crossing (R7). -/
def DecoderRec.crossed (d : DecoderRec) : Dir → DecoderRec
  | .ab => { d with phase := .free, side := .none, rock := 0, tallyAB := d.tallyAB + 1 }
  | .ba => { d with phase := .free, side := .none, rock := 0, tallyBA := d.tallyBA + 1 }

/-- A rock return against a rock limit (R8). -/
def DecoderRec.rocked (d : DecoderRec) (limit : Nat) : DecoderRec × EntryResult :=
  if d.rock + 1 < limit then
    ({ d with phase := .free, side := .none, rock := d.rock + 1 }, .rockReturn)
  else ({ d with phase := .free, side := .none, rock := 0 }, .rocking d.side)

/-- The judgement of one change entry (R5 to R10, 1.4.6). -/
def DecoderRec.judge (d : DecoderRec) (limit : Nat) (entry : Phase) : DecoderRec × EntryResult :=
  match d.phase, entry with
  | .free, .aOnly => ({ d with phase := .aOnly, side := .a }, .moved)
  | .free, .bOnly => ({ d with phase := .bOnly, side := .b }, .moved)
  | .aOnly, .both => ({ d with phase := .both }, .moved)
  | .bOnly, .both => ({ d with phase := .both }, .moved)
  | .both, .aOnly => ({ d with phase := .aOnly }, .moved)
  | .both, .bOnly => ({ d with phase := .bOnly }, .moved)
  | .bOnly, .free =>
    match d.side with
    | .a => (d.crossed .ab, .wheel .ab)
    | .b => d.rocked limit
    | .none => (d, .phaseError)
  | .aOnly, .free =>
    match d.side with
    | .b => (d.crossed .ba, .wheel .ba)
    | .a => d.rocked limit
    | .none => (d, .phaseError)
  | _, _ => (d, .phaseError)

/-- Delivers one change entry to a head's decoder and acts on its result (R4). The second component
says that the decoder returned phase error. -/
def Part.deliverEntry (p : Part) (h : HeadId) (entry : Phase) : Part × Bool :=
  let j := (p.decoder h).judge (p.headCfg h).rockLimit.toNat entry
  let q := p.setDecoder h j.1
  match j.2 with
  | .moved => (q, false)
  | .wheel d => (q.wheelEvent h d, false)
  | .rockReturn => (q, false)
  | .rocking side => (q.offer (.headRocking h side), false)
  | .phaseError => (q, true)

/-- Delivers the entries of a change list in order, and none after a phase error (R3, R11). -/
def Part.deliver (p : Part) (h : HeadId) : List Phase → Part × Bool
  | [] => (p, false)
  | entry :: rest =>
    match p.deliverEntry h entry with
    | (q, true) => (q, true)
    | (q, false) => q.deliver h rest

/-! ## The steps of a telegram (R24) -/

/-- Writes a change of a head's record. -/
def Part.changeHead (p : Part) (h : HeadId) (f : HeadRec → HeadRec) : Part :=
  p.setHead h (f (p.head h))

/-- Starts or restarts the silence timer with the timeout in force (R25). -/
def Part.startSilence (p : Part) (h : HeadId) : Part :=
  p.changeHead h fun r => { r with silence := .running (p.headCfg h).silenceTimeout.toNat }

/-- A telegram from an ABSENT head takes it to ACQUIRING (R41). -/
def Part.beginAcquisition (p : Part) (h : HeadId) : Part :=
  ((p.changeHead h fun r =>
      { r with state := .acquiring, run := 0, identityConfirmed := false }).startSilence
    h).offerHeadState h

/-- Step 1 (R25, R41): acquisition begins, the timer restarts, or in FAILED it stays stopped. -/
def Part.silenceStep (p : Part) (h : HeadId) : Part :=
  match (p.head h).state with
  | .absent => p.beginAcquisition h
  | .acquiring => p.startSilence h
  | .inService => p.startSilence h
  | .failed => p

/-- Step 2 for a telegram whose restart marker is set (R27). -/
def Part.restartMarkerStep (p : Part) (h : HeadId) : Part :=
  match (p.head h).state with
  | .inService => p.failHead h .headRestarted
  | .acquiring => p.changeHead h HeadRec.restartRun
  | .failed => p
  | .absent => p

/-- What the sequence step finds (R28 to R32). -/
inductive SequenceVerdict where
  | inOrder
  | repeated
  | bridged (missing : Nat)
  | lost
deriving DecidableEq, Repr

/-- The number of telegrams missing, k of R29, modulo 16. -/
def missingTelegrams (received last : BitVec 4) : BitVec 4 := received - last - 1

/-- The changes that went unseen, u of R29, modulo 256. -/
def unseenChanges (b : Baseline) (t : HeadTelegram) : BitVec 8 :=
  t.changeCount - b.changeCount - BitVec.ofNat 8 t.changes.length

/-- The sequence step of an ACQUIRING or IN_SERVICE head (R28 to R31). -/
def judgeSequence (b : Baseline) (t : HeadTelegram) : SequenceVerdict :=
  if t.sequence = b.sequence + 1 then .inOrder
  else if t.sequence = b.sequence then .repeated
  else if unseenChanges b t = 0 then .bridged (missingTelegrams t.sequence b.sequence).toNat
  else .lost

/-- The sequence step by state: `wasAbsent` says that the head was ABSENT when the telegram came,
and then there is none (R28, R29, R32, R41). -/
def sequenceVerdict (wasAbsent : Bool) (r : HeadRec) (t : HeadTelegram) : SequenceVerdict :=
  if wasAbsent then .inOrder
  else
    match r.baseline with
    | none => .inOrder
    | some b =>
      if r.state = .failed then (if t.sequence = b.sequence then .repeated else .inOrder)
      else judgeSequence b t

/-- The change list step of an IN_SERVICE head: delivery, and then the present-phase agreement of
R12; a phase error fails the head (R11, R33). -/
def Part.changeListInService (p : Part) (h : HeadId) (t : HeadTelegram) : Part :=
  match p.deliver h t.changes with
  | (q, true) => q.failHead h .phaseError
  | (q, false) => if (q.decoder h).phase = t.phase then q else q.failHead h .phaseError

/-- A telegram is eligible for the admission run: a heartbeat at FREE (R33). -/
def HeadTelegram.eligible (t : HeadTelegram) : Bool := t.changes.isEmpty && t.phase == .free

/-- The change list step of an ACQUIRING head (R33). -/
def HeadRec.judgeRun (r : HeadRec) (t : HeadTelegram) : HeadRec :=
  if t.eligible then { r with run := raiseTo 16 r.run } else r.restartRun

/-- Step 4 by state (R33). -/
def Part.changeListStep (p : Part) (h : HeadId) (t : HeadTelegram) : Part :=
  match (p.head h).state with
  | .inService => p.changeListInService h t
  | .acquiring => p.changeHead h fun r => r.judgeRun t
  | .failed => p
  | .absent => p

/-- Steps 3 and 4 for a bridged gap: GAP_BRIDGED, and the list delivered in IN_SERVICE; in ACQUIRING
the run is 0 and the list step leaves it so (R29). -/
def Part.bridgedStep (p : Part) (h : HeadId) (missing : Nat) (t : HeadTelegram) : Part :=
  let q := p.offer (.gapBridged h missing)
  match (q.head h).state with
  | .inService => q.changeListInService h t
  | .acquiring => q.changeHead h HeadRec.restartRun
  | .failed => q
  | .absent => q

/-- Step 3 for a gap that cannot be bridged (R30). -/
def Part.sequenceLossStep (p : Part) (h : HeadId) : Part :=
  match (p.head h).state with
  | .inService => p.failHead h .sequenceLoss
  | .acquiring => p.changeHead h HeadRec.restartRun
  | .failed => p
  | .absent => p

/-- A condition of the health block that fails an IN_SERVICE head and resets the run of an ACQUIRING
one (R34). -/
def Part.healthFault (p : Part) (h : HeadId) (cause : HeadCause) : Part :=
  match (p.head h).state with
  | .inService => p.failHead h cause
  | .acquiring => p.changeHead h HeadRec.restartRun
  | .failed => p
  | .absent => p

/-- The levels and the supply alarm of a health block (R34). -/
def Part.levelsStep (p : Part) (h : HeadId) (b : Health) : Part :=
  let floor := (p.headCfg h).levelFloor.toNat
  if b.levelA.toNat < floor ∨ b.levelB.toNat < floor then p.healthFault h .sensorLow
  else if b.supplyAlarm then p.healthFault h .supplyAlarm
  else p

/-- The temperature alarm against the block replaced (R35). -/
def Part.temperatureStep (p : Part) (h : HeadId) (old : Option Health) (b : Health) : Part :=
  let before :=
    match old with
    | some o => o.temperatureAlarm
    | none => false
  if b.temperatureAlarm = before then p else p.offer (.headTemperature h b.temperatureAlarm)

/-- The identity of a health block: learned (R36) or checked (R37). -/
def Part.identityStep (p : Part) (h : HeadId) (b : Health) : Part :=
  if (p.headCfg h).expected = 0 then
    let q := p.changeHead h fun r => { r with learned := some b.identity }
    if (p.head h).learned = some b.identity then q else q.offer (.identityLearned h b.identity)
  else if b.identity = (p.headCfg h).expected then
    match (p.head h).state with
    | .acquiring => p.changeHead h fun r => { r with identityConfirmed := true }
    | .inService => p
    | .failed => p
    | .absent => p
  else
    match (p.head h).state with
    | .acquiring => p.failHead h .identityMismatch
    | .inService => p.failHead h .identityMismatch
    | .failed => p
    | .absent => p

/-- Step 5 (R34 to R37). The block is stored first; the temperature alarm is compared with the block
it replaces. -/
def Part.healthStep (p : Part) (h : HeadId) (t : HeadTelegram) : Part :=
  match t.health with
  | none => p
  | some b =>
    let old := (p.head h).health
    let stored := p.changeHead h fun r => { r with health := some b }
    ((stored.levelsStep h b).temperatureStep h old b).identityStep h b

/-- The link controller takes an echo: it completes the queue head that awaits it, or is ignored
(R65). -/
def Part.takeEcho (p : Part) (l : LinkId) (station : Octet) (e : Echo) : Part :=
  match (p.link l).queue with
  | [] => p
  | c :: _ =>
    if c.stage = .awaitingEcho ∧ c.station = station ∧ c.code = e.code ∧ c.tag = e.tag then
      p.completeRelay l .done
    else p

/-- Step 6 (R38). -/
def Part.echoStep (p : Part) (l : LinkId) (t : HeadTelegram) : Part :=
  match t.echo with
  | none => p
  | some e => p.takeEcho l t.station e

/-- Step 7 (R39). -/
def Part.baselineStep (p : Part) (h : HeadId) (t : HeadTelegram) : Part :=
  p.changeHead h fun r =>
    { r with baseline := some { sequence := t.sequence, changeCount := t.changeCount } }

/-- The conditions of admission (R40). -/
def Part.admits (p : Part) (h : HeadId) : Bool :=
  decide ((p.headCfg h).acquireCount.toNat ≤ (p.head h).run) &&
    ((p.headCfg h).expected == 0 || (p.head h).identityConfirmed)

/-- Step 8 (R40, R15). -/
def Part.admissionStep (p : Part) (h : HeadId) : Part :=
  match (p.head h).state with
  | .acquiring =>
    if p.admits h then
      let q := p.changeHead h fun r => { r with state := .inService }
      (q.setDecoder h (q.decoder h).rest).offerHeadState h
    else p
  | .inService => p
  | .failed => p
  | .absent => p

/-- Steps 5 to 8 (R24). -/
def Part.laterSteps (p : Part) (l : LinkId) (h : HeadId) (t : HeadTelegram) : Part :=
  (((p.healthStep h t).echoStep l t).baselineStep h t).admissionStep h

/-- The head supervisor takes a telegram as one event (R24). The second component says that it was a
repeat, of which nothing goes further than step 1 (R28, R32). -/
def Part.takeTelegram (p : Part) (l : LinkId) (h : HeadId) (t : HeadTelegram) : Part × Bool :=
  let wasAbsent := decide ((p.head h).state = .absent)
  let q := p.silenceStep h
  if t.restart then ((q.restartMarkerStep h).laterSteps l h t, false)
  else
    match sequenceVerdict wasAbsent (q.head h) t with
    | .repeated => (q, true)
    | .inOrder => ((q.changeListStep h t).laterSteps l h t, false)
    | .bridged k => ((q.bridgedStep h k t).laterSteps l h t, false)
    | .lost => ((q.sequenceLossStep h).laterSteps l h t, false)

/-! ## Silence expiry and link loss -/

/-- SILENCE_EXPIRY: an ACQUIRING head goes to ABSENT, an IN_SERVICE head fails (R26). A timer that
does not run has no expiry (R1). -/
def Part.silenceExpiry (p : Part) (h : HeadId) : Part :=
  match (p.head h).silence with
  | .stopped => p
  | .running _ =>
    match (p.head h).state with
    | .acquiring =>
      (p.changeHead h fun r =>
        { r with state := .absent, baseline := none, run := 0, identityConfirmed := false
                 silence := .stopped }).offerHeadState h
    | .inService => p.failHead h .silence
    | .failed => p.changeHead h fun r => { r with silence := .stopped }
    | .absent => p.changeHead h fun r => { r with silence := .stopped }

/-- SILENCE_EXPIRY (R26). -/
def execSilenceExpiry (h : HeadId) (s : State) : Host.Outcome State Fault Refusal :=
  s.next (s.toPart.unlessReset fun p => p.silenceExpiry h)

/-- One head's part of a link loss (R44). -/
def Part.loseHead (p : Part) (h : HeadId) : Part :=
  match (p.head h).state with
  | .acquiring => p.failHead h .linkLost
  | .inService => p.failHead h .linkLost
  | .absent => p
  | .failed => p

/-- The link-loss event of R44, for every present head of the link in ascending number (R57). -/
def Part.loseHeads (p : Part) (l : LinkId) : Part :=
  (p.activeTable.headsOfLink l).foldl (fun q h => q.loseHead h) p

/-! ## Requests -/

/-- The health block as an item (R165, R166). -/
def healthItem (b : Health) : List Octet :=
  [nibbles b.levelA b.levelB,
    (codeFlag b.supplyAlarm <<< 1) ||| codeFlag b.temperatureAlarm] ++ octets24 b.identity

/-- HEAD QUERY (R47). -/
def headQueryRequest (body : List Octet) (p : Part) : Part × Answer :=
  match headOf (field body 1) with
  | none => (p, refuse .range)
  | some h =>
    let cfg := p.headCfg h
    let r := p.head h
    let d := p.decoder h
    let presence := if cfg.present then [1, cfg.link, cfg.station] else [0, 0, 0]
    (p, done (presence ++
      [codeHeadState r.state, codeHeadCause r.lastCause, octetOf r.run,
        codeFlag r.identityConfirmed] ++
      optional 2 (r.baseline.map fun b => [b.sequence.setWidth 8, b.changeCount]) ++
      optional 5 (r.health.map healthItem) ++
      optional 3 (r.learned.map octets24) ++
      [codePhase d.phase, codeSide d.side, octetOf d.rock] ++
      octets16 d.tallyAB ++ octets16 d.tallyBA))

/-- HEAD RELEASE (R48). -/
def headReleaseRequest (body : List Octet) (p : Part) : Part × Answer :=
  match headOf (field body 1) with
  | none => (p, refuse .range)
  | some h =>
    if (p.headCfg h).present = false then (p, refuse .range)
    else if (p.head h).state ≠ .failed then (p, refuse .state)
    else
      ((p.changeHead h fun r => { r with state := .absent, baseline := none }).offerHeadState h,
        done [])

/-- HEAD ADOPT: the learned identity becomes the expected identity of the staging record (R49). -/
def headAdoptRequest (body : List Octet) (p : Part) : Part × Answer :=
  match headOf (field body 1) with
  | none => (p, refuse .range)
  | some h =>
    match (p.head h).learned with
    | none => (p, refuse .state)
    | some identity =>
      let record := { p.tables.staging.headCfg h with expected := identity }
      (p.setTables { p.tables with
          staging := { p.tables.staging with
            heads := p.tables.staging.heads.set h.val record h.isLt }
          stagingState := .editing }, done [])

end Sys2Proof.Machine
end

