-- ==== Sys2Proof/Machine/Links.lean ====
section
/-! DEFINITION. The head link controllers (chapter 03): link states, bad frames and link loss,
telegrams of a locked link, octets of a head link, the relay path, LINK QUERY and HEAD RELAY. -/

namespace Sys2Proof.Machine

/-! ## Views of the mode -/

/-- The link state (R54). -/
def LinkRec.state (k : LinkRec) : LinkState :=
  match k.mode with
  | .off => .off
  | .search _ => .search
  | .locked _ _ => .locked

/-- The polarity: NONE unless LOCKED (R54). -/
def LinkRec.polarity (k : LinkRec) : Option Polarity :=
  match k.mode with
  | .locked polarity _ => some polarity
  | .off => none
  | .search _ => none

/-- The receiver is in FRAME (R51, R61). -/
def LinkRec.inFrame (k : LinkRec) : Bool :=
  match k.mode with
  | .locked _ (.frame _) => true
  | .locked _ .wait => false
  | .locked _ .hunt => false
  | .off => false
  | .search _ => false

/-- The polarity given up or kept, DIRECT where none is held. -/
def LinkRec.polarityHeld (k : LinkRec) : Polarity :=
  match k.mode with
  | .locked polarity _ => polarity
  | .off => .direct
  | .search _ => .direct

/-- A link enters SEARCH: polarity NONE, run 0, any telegram in assembly dropped (R55). -/
def LinkRec.toSearch (k : LinkRec) : LinkRec := { k with mode := .search none, run := 0 }

/-- A link goes to OFF: polarity NONE, run 0, any telegram in assembly dropped, relay timer stopped
(R58). -/
def LinkRec.toOff (k : LinkRec) : LinkRec := { k with mode := .off, run := 0, timer := .stopped }

/-- The receive condition of a LOCKED link. -/
def LinkRec.withRx (k : LinkRec) (rx : Rx) : LinkRec :=
  match k.mode with
  | .locked polarity _ => { k with mode := .locked polarity rx }
  | .off => k
  | .search _ => k

/-! ## Bad frames and link loss -/

/-- The kinds of bad frame on a head link (R54). -/
inductive BadFrame where
  | syncMiss
  | length
  | charTimeout
  | crc
  | format
deriving DecidableEq, Repr

/-- The cumulative counter of a kind rises (R57). -/
def LinkCounts.raise (c : LinkCounts) : BadFrame → LinkCounts
  | .syncMiss => { c with syncMiss := raise16 c.syncMiss }
  | .length => { c with length := raise16 c.length }
  | .charTimeout => { c with charTimeout := raise16 c.charTimeout }
  | .crc => { c with crc := raise16 c.crc }
  | .format => { c with format := raise16 c.format }

/-- The bad-frame threshold of a link in the active table (R71). -/
def Part.threshold (p : Part) (l : LinkId) : Nat := p.activeTable.global.threshold[l].toNat

/-- The link is lost: the five steps of R57 in their order. -/
def Part.linkLoss (p : Part) (l : LinkId) : Part :=
  let k := p.link l
  let searching := p.setLink l { k.toSearch with latch := true }
  ((searching.offer (.linkState l .search k.polarityHeld)).loseHeads l).cancelRelays l
    (fun _ => true)

/-- A bad frame on a LOCKED link, which leaves the receiver in `rx` (R51, R57). -/
def Part.badFrame (p : Part) (l : LinkId) (kind : BadFrame) (rx : Rx) : Part :=
  let k := p.link l
  let q := p.setLink l { k.withRx rx with run := k.run + 1, counts := k.counts.raise kind }
  if p.threshold l ≤ k.run + 1 then q.linkLoss l else q

/-! ## A telegram that passed CRC on a LOCKED link (R53, R56, R60) -/

/-- Offers a mirror of a telegram; a full buffer discards it and the link counts it (R60, R154). -/
def Part.offerMirror (p : Part) (l : LinkId) (octets : List Octet) : Part :=
  if p.report.mirrorsFull then
    p.setLink l { p.link l with mirrorsDropped := raise16 (p.link l).mirrorsDropped }
  else
    p.setReport { p.report with
      mirrors := p.report.mirrors ++ [{ link := l, octets := octets }] }

/-- A telegram of a mapped head: the supervisor takes it, the run is set to 0 or the repeat counted,
and the copy is offered when the head's mirror flag is set (R56, R60). -/
def Part.mappedTelegram (p : Part) (l : LinkId) (h : HeadId) (t : HeadTelegram)
    (octets : List Octet) : Part :=
  let taken := p.takeTelegram l h t
  let q := taken.1
  let counted :=
    if taken.2 then q.setLink l { q.link l with repeats := raise16 (q.link l).repeats }
    else q.setLink l { q.link l with run := 0 }
  if (p.headCfg h).mirror then counted.offerMirror l octets else counted

/-- A telegram of a LOCKED link that passed CRC, its receiver in WAIT; `octets` are those after SYNC,
in DIRECT sense (R53, R56). -/
def Part.lockedTelegram (p : Part) (l : LinkId) (octets : List Octet) : Part :=
  match parseHeadStatus (addressOctet octets) (kindOctet octets) (bodyOctets octets) with
  | none => p.badFrame l .format .wait
  | some t =>
    match p.activeTable.stationMap l t.station with
    | none => p.setLink l { p.link l with strays := raise16 (p.link l).strays }
    | some h => p.mappedTelegram l h t octets

/-- A candidate passes CRC: the link locks in its polarity, and the telegram is judged as any of a
LOCKED link (R55). -/
def Part.lock (p : Part) (l : LinkId) (polarity : Polarity) (octets : List Octet) : Part :=
  let locked := p.setLink l { p.link l with mode := .locked polarity .wait, latch := true }
  (locked.offer (.linkState l .locked polarity)).lockedTelegram l octets

/-! ## Octets of a head link -/

/-- An octet of a link in SEARCH (R55). -/
def Part.searchOctet (p : Part) (l : LinkId) (candidate : Option (Polarity × List Octet))
    (octet : Octet) : Part :=
  let k := p.link l
  match candidate with
  | none =>
    if octet = sync then p.setLink l { k with mode := .search (some (.direct, [])) }
    else if octet = syncInverted then p.setLink l { k with mode := .search (some (.inverted, [])) }
    else p
  | some (polarity, octets) =>
    let taken := octets ++ [polarity.apply octet]
    match judgeFrame taken with
    | .more => p.setLink l { k with mode := .search (some (polarity, taken)) }
    | .badLength => p.setLink l { k with mode := .search none }
    | .badCrc => p.setLink l { k with mode := .search none }
    | .good => p.lock l polarity taken

/-- An octet of a LOCKED link, after its polarity (R51, R52). -/
def Part.lockedOctet (p : Part) (l : LinkId) (rx : Rx) (octet : Octet) : Part :=
  let k := p.link l
  match rx with
  | .wait => if octet = sync then p.setLink l (k.withRx (.frame [])) else p.badFrame l .syncMiss .hunt
  | .hunt => if octet = sync then p.setLink l (k.withRx (.frame [])) else p
  | .frame octets =>
    let taken := octets ++ [octet]
    match judgeFrame taken with
    | .more => p.setLink l (k.withRx (.frame taken))
    | .badLength => p.badFrame l .length .hunt
    | .badCrc => p.badFrame l .crc .hunt
    | .good => (p.setLink l (k.withRx .wait)).lockedTelegram l taken

/-- One octet on a head link. An OFF link takes none (R54), and a transmission by the part holds the
receiver off (R61). -/
def Part.linkOctet (p : Part) (l : LinkId) (octet : Octet) : Part :=
  let k := p.link l
  if k.transmitter.isSome then p
  else
    match k.mode with
    | .off => p
    | .search candidate => p.searchOctet l candidate octet
    | .locked polarity rx => p.lockedOctet l rx (polarity.apply octet)

/-- The character wait of a head link expires (R52): a telegram in FRAME is a CHAR_TIMEOUT bad frame,
and a candidate is dropped (R55). DESIGN CHOICE (log 24): a receiver in WAIT or HUNT has no character wait,
and this changes nothing there; the gap of R51 that takes HUNT to WAIT is QUIET_INTERVAL's. -/
def Part.linkCharTimeout (p : Part) (l : LinkId) : Part :=
  match (p.link l).mode with
  | .locked _ (.frame _) => p.badFrame l .charTimeout .hunt
  | .locked _ .wait => p
  | .locked _ .hunt => p
  | .search _ => p.setLink l { p.link l with mode := .search none }
  | .off => p

/-- The character wait that ends on a head link (R52); the receiver measures none while the part transmits
on the link (R61). -/
def Part.linkCharWait (p : Part) (l : LinkId) : Part :=
  if (p.link l).transmitter.isSome then p else p.linkCharTimeout l

/-- HUNT goes to WAIT in a gap of more than 4 octet times (R51). -/
def Rx.quiet : Rx → Rx
  | .hunt => .wait
  | .wait => .wait
  | .frame octets => .frame octets

/-- A gap of more than 4 octet times on a head link (R51, R52); the receiver measures none while the
part transmits on the link (R61). -/
def Part.linkQuiet (p : Part) (l : LinkId) : Part :=
  if (p.link l).transmitter.isSome then p
  else
    let q := p.linkCharTimeout l
    match (q.link l).mode with
    | .locked _ rx => q.setLink l ((q.link l).withRx rx.quiet)
    | .search _ => q
    | .off => q

/-! ## Relay transmission (R61, R64, R66) -/

/-- The four conditions of R61 hold, for the command given as queue head. -/
def LinkRec.relayReady (k : LinkRec) : Bool :=
  k.transmitter.isNone && decide (k.state = .locked) && !k.inFrame &&
    (match k.queue with
      | c :: _ => decide (c.stage = .waiting)
      | [] => false)

/-- RELAY_TRANSMISSION_START: the telegram of the queue head starts where the conditions hold (R61). -/
def Part.relayStart (p : Part) (l : LinkId) : Part :=
  let k := p.link l
  if k.relayReady then
    match k.queue with
    | c :: rest =>
      p.setLink l { k with
        transmitter := some (relayTelegram k.polarityHeld c)
        queue := { c with stage := .transmitting } :: rest }
    | [] => p
  else p

/-- RELAY_TRANSMISSION_START (R61). -/
def execRelayTransmissionStart (l : LinkId) (s : State) : Host.Outcome State Fault Refusal :=
  s.next (s.toPart.unlessReset fun p => p.relayStart l)

/-- The echo wait: 200 ms, fixed (R64). -/
def echoWait : Nat := 200

/-- The queue head moves on at the last octet of its transmission; one that was cancelled meanwhile
is gone, and nothing is done for it (R61, R64). -/
def Part.relaySent (p : Part) (l : LinkId) : Part :=
  let k := p.link l
  match k.queue with
  | [] => p
  | c :: rest =>
    if c.stage = .transmitting then
      match c.target with
      | .head _ =>
        p.setLink l { k with queue := { c with stage := .awaitingEcho } :: rest
                             timer := .running echoWait }
      | .broadcast => p.completeRelay l .sent
    else p

/-- RELAY_TRANSMISSION_END: the transmitter becomes idle, a LOCKED link's receiver enters HUNT, and
the command moves on (R61, R64). With no transmission under way there is no last octet. -/
def Part.relayEnd (p : Part) (l : LinkId) : Part :=
  let k := p.link l
  match k.transmitter with
  | none => p
  | some _ => (p.setLink l { k.withRx .hunt with transmitter := none }).relaySent l

/-- RELAY_TRANSMISSION_END (R61, R64). -/
def execRelayTransmissionEnd (l : LinkId) (s : State) : Host.Outcome State Fault Refusal :=
  s.next (s.toPart.unlessReset fun p => p.relayEnd l)

/-- RELAY_TIMER_EXPIRY: the queue head ends NO_ECHO (R66). A timer that does not run has no expiry
(R1). -/
def Part.relayExpiry (p : Part) (l : LinkId) : Part :=
  match (p.link l).timer with
  | .stopped => p
  | .running _ => p.completeRelay l .noEcho

/-- RELAY_TIMER_EXPIRY (R66). -/
def execRelayTimerExpiry (l : LinkId) (s : State) : Host.Outcome State Fault Refusal :=
  s.next (s.toPart.unlessReset fun p => p.relayExpiry l)

/-! ## Requests -/

/-- The counters and the latch that LINK QUERY reads and clears (R59). -/
def LinkRec.cleared (k : LinkRec) : LinkRec :=
  { k with counts := .zero, strays := 0, repeats := 0, mirrorsDropped := 0, latch := false }

/-- LINK QUERY (R59). -/
def linkQueryRequest (body : List Octet) (p : Part) : Part × Answer :=
  match linkOf (field body 1) with
  | none => (p, refuse .range)
  | some l =>
    let k := p.link l
    let threshold := p.tables.active.map fun a =>
      [(a.table.global.threshold[l]).setWidth 8]
    (p.setLink l k.cleared,
      done ([codeLinkState k.state, codePolarity k.polarity, octetOf k.run] ++
        optional 1 threshold ++
        twoOctets k.counts.syncMiss ++ twoOctets k.counts.length ++
        twoOctets k.counts.charTimeout ++ twoOctets k.counts.crc ++ twoOctets k.counts.format ++
        twoOctets k.strays ++ twoOctets k.repeats ++ twoOctets k.mirrorsDropped ++
        [codeFlag k.latch, octetOf k.queue.length, k.tag.setWidth 8]))

/-- What HEAD RELAY is addressed to: the link, the target and the station (R63). -/
structure RelayAddress where
  link    : LinkId
  target  : RelayTarget
  station : Octet
deriving DecidableEq, Repr

/-- R63 order 1: a present logical head (target form 1), or an enabled link with broadcast (target
form 2); none is RANGE. -/
def Part.relayAddress (p : Part) (form number : Octet) : Option RelayAddress :=
  if form = 1 then
    match headOf number with
    | none => none
    | some h =>
      if (p.headCfg h).present then
        (linkOf (p.headCfg h).link).map fun l =>
          { link := l, target := .head h, station := (p.headCfg h).station }
      else none
  else
    match linkOf number with
    | none => none
    | some l =>
      if p.activeTable.global.enabled[l] then
        some { link := l, target := .broadcast, station := 0 }
      else none

/-- R63 order 3: a RESTART would reach a head that is IN_SERVICE. -/
def Part.restartForbidden (p : Part) (a : RelayAddress) (code : RelayCode) : Bool :=
  match code with
  | .healthRequest => false
  | .restart =>
    match a.target with
    | .head h => decide ((p.head h).state = .inService)
    | .broadcast =>
      (p.activeTable.headsOfLink a.link).any fun h => decide ((p.head h).state = .inService)

/-- HEAD RELAY: the checks of R63 in their order, and the command queued with the next tag. -/
def headRelayRequest (body : List Octet) (p : Part) : Part × Answer :=
  let code : RelayCode := if field body 3 = 1 then .restart else .healthRequest
  match p.relayAddress (field body 1) (field body 2) with
  | none => (p, refuse .range)
  | some a =>
    let k := p.link a.link
    if k.state ≠ .locked then (p, refuse .state)
    else if p.restartForbidden a code then (p, refuse .state)
    else if relayCapacity ≤ k.queue.length then (p, refuse .busy)
    else
      (p.setLink a.link { k with
          queue := k.queue ++ [{ target := a.target, station := a.station, code := code
                                 tag := k.tag, stage := .waiting }]
          tag := k.tag + 1 },
        accepted [octetOf a.link.val, k.tag.setWidth 8])

end Sys2Proof.Machine
end

