-- ==== Sys2Proof/Machine/Tables.lean ====
section
/-! DEFINITION. The table manager: the consistency checks C1 to C8 (chapter 04), the requests on the
staging table, and the activation delta (chapter 07). -/

namespace Sys2Proof.Machine

/-! ## The consistency checks (R76 to R81) -/

/-- A value lies in a range and is a multiple of a step. -/
def inSteps (low high step value : Nat) : Bool :=
  decide (low ≤ value) && decide (value ≤ high) && decide (value % step = 0)

/-- C1 for the global record (R77). -/
def GlobalRecord.inRange (g : GlobalRecord) : Bool :=
  inSteps 100 10000 100 g.reportCycle.toNat && inSteps 100 5000 100 g.holdLimit.toNat &&
    namesOneOf 2 g.startMode && (List.finRange 4).all (fun l => g.threshold[l] != 0)

/-- C1 for a present head record (R77). -/
def HeadRecord.inRange (r : HeadRecord) : Bool :=
  decide (r.link.toNat ≤ 3) && inSteps 1 8 1 r.station.toNat &&
    inSteps 20 1000 10 r.silenceTimeout.toNat && inSteps 2 16 1 r.acquireCount.toNat &&
    inSteps 1 15 1 r.rockLimit.toNat && decide (r.levelFloor.toNat ≤ 15)

/-- C1 for a present section record (R77). -/
def SectionRecord.inRange (r : SectionRecord) : Bool :=
  r.boundary.all (fun e => decide (e.head.toNat ≤ 31) && namesOneOf 2 e.inward) &&
    inSteps 16 4095 1 r.countLimit.toNat && inSteps 0 5000 50 r.confirmTime.toNat

/-- The first head, in ascending number, that fails a test. -/
def firstHead (code : CheckCode) (fails : HeadId → Bool) : Option CheckFailure :=
  ((List.finRange 32).find? fails).map fun h => { code := code, kind := .head, number := h.val }

/-- The first section, in ascending number, that fails a test. -/
def firstSection (code : CheckCode) (fails : SectionId → Bool) : Option CheckFailure :=
  ((List.finRange 24).find? fails).map fun i =>
    { code := code, kind := .sectionRecord, number := i.val }

/-- A failure that names GLOBAL 0. -/
def globalFailure (code : CheckCode) : CheckFailure := { code := code, kind := .global, number := 0 }

/-- C1: every field in range, over GLOBAL, then the present heads, then the present sections (R77). -/
def Table.checkC1 (t : Table) : Option CheckFailure :=
  if t.global.inRange = false then some (globalFailure .c1)
  else
    match firstHead .c1 fun h => (t.headCfg h).present && !(t.headCfg h).inRange with
    | some f => some f
    | none => firstSection .c1 fun i => (t.sectionCfg i).present && !(t.sectionCfg i).inRange

/-- C2: a boundary list of 1 to 4 entries (R78). -/
def Table.checkC2 (t : Table) : Option CheckFailure :=
  firstSection .c2 fun i => (t.sectionCfg i).present &&
    (decide ((t.sectionCfg i).boundary.length < 1) || decide (4 < (t.sectionCfg i).boundary.length))

/-- An entry names a head whose record is present. -/
def Table.entryPresent (t : Table) (e : BoundaryEntry) : Bool :=
  match headOf e.head with
  | some h => (t.headCfg h).present
  | none => false

/-- C3: each entry names a present head (R78). -/
def Table.checkC3 (t : Table) : Option CheckFailure :=
  firstSection .c3 fun i => (t.sectionCfg i).present &&
    !(t.sectionCfg i).boundary.all t.entryPresent

/-- No head stands twice in a boundary list. -/
def distinctHeads : List BoundaryEntry → Bool
  | [] => true
  | e :: rest => rest.all (fun f => f.head != e.head) && distinctHeads rest

/-- C4: no head twice in one list (R78). -/
def Table.checkC4 (t : Table) : Option CheckFailure :=
  firstSection .c4 fun i => (t.sectionCfg i).present && !distinctHeads (t.sectionCfg i).boundary

/-- The inward directions given to a head in the lists of all present sections (R79). -/
def Table.inwardsOf (t : Table) (h : HeadId) : List Octet :=
  t.presentSections.flatMap fun i =>
    ((t.sectionCfg i).boundary.filter fun e => e.head.toNat == h.val).map (·.inward)

/-- C5 at one head: at most two entries, and two with opposite senses (R79). -/
def sensesAgree : List Octet → Bool
  | [] => true
  | [_] => true
  | [d, e] => d != e
  | _ => false

/-- C5 (R79). -/
def Table.checkC5 (t : Table) : Option CheckFailure :=
  firstHead .c5 fun h => (t.headCfg h).present && !sensesAgree (t.inwardsOf h)

/-- C6: one present head for each link and station; the higher-numbered head is named (R80). -/
def Table.checkC6 (t : Table) : Option CheckFailure :=
  firstHead .c6 fun h => (t.headCfg h).present &&
    (List.finRange 32).any fun g =>
      decide (g.val < h.val) && (t.headCfg g).present &&
        (t.headCfg g).link == (t.headCfg h).link && (t.headCfg g).station == (t.headCfg h).station

/-- A link octet names an enabled link. -/
def Table.linkEnabled (t : Table) (link : Octet) : Bool :=
  match linkOf link with
  | some l => t.global.enabled[l]
  | none => false

/-- C7: present heads on enabled links (R80). -/
def Table.checkC7 (t : Table) : Option CheckFailure :=
  firstHead .c7 fun h => (t.headCfg h).present && !t.linkEnabled (t.headCfg h).link

/-- C8: at least one section present (R81). -/
def Table.checkC8 (t : Table) : Option CheckFailure :=
  if t.presentSections.isEmpty then some (globalFailure .c8) else none

/-- The checks in order; the first failure ends the run (R76). -/
def Table.firstFailure (t : Table) : Option CheckFailure :=
  [t.checkC1, t.checkC2, t.checkC3, t.checkC4, t.checkC5, t.checkC6, t.checkC7, t.checkC8].findSome? id

/-! ## Requests on the staging table (R128 to R131) -/

/-- The record octets of a TABLE WRITE: after the tag, the kind and the number (R166). -/
def recordOctets (body : List Octet) : List Octet := body.drop 3

/-- TABLE WRITE (R128). -/
def tableWriteRequest (body : List Octet) (p : Part) : Part × Answer :=
  match recordKindOf (field body 1) with
  | none => (p, refuse .format)
  | some kind =>
    match decodeRecord kind (recordOctets body) with
    | none => (p, refuse .format)
    | some record =>
      if recordNumberInRange kind (field body 2) then
        (p.setTables { p.tables with
            staging := p.tables.staging.withRecord (field body 2) record
            stagingState := .editing }, done [])
      else (p, refuse .range)

/-- The staging CRC: held while CHECKED (R125). -/
def StagingState.crc : StagingState → Option Crc
  | .editing => none
  | .checked crc => some crc

/-- The last check result as an item (R166). -/
def checkResultItem : CheckResult → List Octet
  | .none => [0, 0, 0, 0]
  | .pass crc => 1 :: (octets16 crc ++ [0])
  | .fail f => [2, codeCheck f.code, codeRecordKind f.kind, octetOf f.number]

/-- TABLE READ, copy ACTIVE coded 1 and STAGING coded 2 (R129). -/
def tableReadRequest (body : List Octet) (p : Part) : Part × Answer :=
  match recordKindOf (field body 2) with
  | none => (p, refuse .format)
  | some kind =>
    if recordNumberInRange kind (field body 3) = false then (p, refuse .range)
    else if field body 1 = 1 then
      match p.tables.active with
      | none => (p, refuse .state)
      | some a =>
        (p, done (encodeRecord (a.table.record kind (field body 3)) ++ octets16 a.crc))
    else
      (p, done (encodeRecord (p.tables.staging.record kind (field body 3)) ++
        [codeStagingState p.tables.stagingState] ++
        optional 2 (p.tables.stagingState.crc.map octets16) ++
        checkResultItem p.tables.lastCheck))

/-- TABLE COPY (R130). -/
def tableCopyRequest (_body : List Octet) (p : Part) : Part × Answer :=
  match p.tables.active with
  | none => (p, refuse .state)
  | some a =>
    (p.setTables { p.tables with
        staging := a.table, stagingState := .checked a.crc, lastCheck := .pass a.crc },
      done (octets16 a.crc))

/-- TABLE CHECK (R131). -/
def tableCheckRequest (_body : List Octet) (p : Part) : Part × Answer :=
  match p.tables.staging.firstFailure with
  | none =>
    let crc := tableCrc p.tables.staging
    (p.setTables { p.tables with stagingState := .checked crc, lastCheck := .pass crc },
      done (octets16 crc))
  | some f =>
    (p.setTables { p.tables with stagingState := .editing, lastCheck := .fail f },
      { outcome := .refused .notChecked
        items := [codeCheck f.code, codeRecordKind f.kind, octetOf f.number] })

/-! ## The activation delta (R133 to R138) -/

/-- R134: a head is remapped. -/
def remapped (old new : Table) (h : HeadId) : Bool :=
  (new.headCfg h).present &&
    (!(old.headCfg h).present || (old.headCfg h).link != (new.headCfg h).link ||
      (old.headCfg h).station != (new.headCfg h).station ||
      (old.headCfg h).expected != (new.headCfg h).expected)

/-- R134: a head is removed. -/
def removed (old new : Table) (h : HeadId) : Bool :=
  (old.headCfg h).present && !(new.headCfg h).present

/-- R134: a head is remapped or removed. -/
def headCleared (old new : Table) (h : HeadId) : Bool := remapped old new h || removed old new h

/-- The record of a head remapped or removed; the last fail cause is kept (R45). -/
def HeadRec.cleared (r : HeadRec) : HeadRec := { HeadRec.reset with lastCause := r.lastCause }

/-- R17, R45. -/
def Part.clearHead (p : Part) (h : HeadId) : Part :=
  (p.setHead h (p.head h).cleared).setDecoder h DecoderRec.reset

/-- Step 1 (R134). -/
def Part.activateHeads (p : Part) (old new : Table) : Part :=
  (List.finRange 32).foldl (fun q h => if headCleared old new h then q.clearHead h else q) p

/-- A link that is enabled in the old table and not in the new (R136, R137). -/
def linkDisabled (old new : Table) (l : LinkId) : Bool :=
  old.global.enabled[l] && !new.global.enabled[l]

/-- A link that is enabled in the new table and not in the old (R137). -/
def linkNewlyEnabled (old new : Table) (l : LinkId) : Bool :=
  !old.global.enabled[l] && new.global.enabled[l]

/-- The commands of a link's queue that an activation cancels (R136). -/
def relayCancelled (old new : Table) (l : LinkId) (c : RelayCommand) : Bool :=
  linkDisabled old new l ||
    (match c.target with
      | .head h => headCleared old new h
      | .broadcast => false)

/-- Step 2, the links in ascending number (R136). -/
def Part.activateRelays (p : Part) (old new : Table) : Part :=
  (List.finRange 4).foldl (fun q l => q.cancelRelays l (relayCancelled old new l)) p

/-- The classes of R135. -/
inductive SectionClass where
  | changed
  | unchanged
  | new
  | removed
  | untouched
deriving DecidableEq, Repr

/-- R135: the boundary list or the count limit differs, or a head of the new list is remapped. -/
def sectionDiffers (old new : Table) (i : SectionId) : Bool :=
  (old.sectionCfg i).boundary != (new.sectionCfg i).boundary ||
    (old.sectionCfg i).countLimit != (new.sectionCfg i).countLimit ||
    (List.finRange 32).any fun h => (new.sectionCfg i).names h && remapped old new h

/-- R135. -/
def sectionClass (old new : Table) (i : SectionId) : SectionClass :=
  if (old.sectionCfg i).present then
    if (new.sectionCfg i).present then
      if sectionDiffers old new i then .changed else .unchanged
    else .removed
  else if (new.sectionCfg i).present then .new
  else .untouched

/-- The record of a section that appears, before its entry into DISTURBED (R105). -/
def SectionRec.appearing (r : SectionRec) : SectionRec :=
  { r with state := .absent, count := 0, sweep := false, tally := 0, latch := false
           confirm := .stopped, number := 0 }

/-- The record of a removed section; its number and cause are kept (R106). -/
def SectionRec.gone (r : SectionRec) : SectionRec :=
  { r with state := .absent, count := 0, sweep := false, tally := 0, latch := false
           confirm := .stopped }

/-- One section's share of an activation (R105, R106). -/
def Part.activateSection (p : Part) (old new : Table) (i : SectionId) : Part :=
  match sectionClass old new i with
  | .changed => p.disturb i .reconfigured
  | .new => (p.setSec i (p.sec i).appearing).disturb i .reconfigured
  | .removed => (p.setSec i (p.sec i).gone).mark i
  | .unchanged => p
  | .untouched => p

/-- Step 3, the sections in ascending number (R105). -/
def Part.activateSections (p : Part) (old new : Table) : Part :=
  (List.finRange 24).foldl (fun q i => q.activateSection old new i) p

/-- The sections counted as disturbed: changed and new (R135). -/
def sectionsDisturbed (old new : Table) : Nat :=
  ((List.finRange 24).filter fun i =>
    sectionClass old new i == .changed || sectionClass old new i == .new).length

/-- One link's share of an activation (R58, R137). -/
def Part.activateLink (p : Part) (old new : Table) (l : LinkId) : Part :=
  if linkNewlyEnabled old new l then p.setLink l (p.link l).toSearch
  else if linkDisabled old new l then p.setLink l (p.link l).toOff
  else p

/-- Step 4 (R137). -/
def Part.activateLinks (p : Part) (old new : Table) : Part :=
  (List.finRange 4).foldl (fun q l => q.activateLink old new l) p

/-- Steps 5 and 6: the first report cycle starts and the evaluator goes to HALTED where the
activation leaves UNCONFIGURED, and TABLE_ACTIVATED is offered (R71, R138, R150). -/
def Part.activateRest (p : Part) (new : ActiveTable) (disturbed : Nat) : Part :=
  let q :=
    if p.evaluator = .unconfigured then
      (p.setReport { p.report with
        cycleTimer := .running new.table.global.reportCycle.toNat }).setEvaluator .halted
    else p
  q.offer (.tableActivated new.crc disturbed)

/-- The activation of R133: the staging contents become the active table, and the delta is applied in
its six steps. With no old table, every record of it is taken to be blank. -/
def Part.activate (p : Part) (crc : Crc) : Part :=
  let old := p.activeTable
  let new := p.tables.staging
  let installed := p.setTables { p.tables with active := some { table := new, crc := crc } }
  (((((installed.activateHeads old new).activateRelays old new).activateSections old new).activateLinks
    old new).activateRest { table := new, crc := crc } (sectionsDisturbed old new))

/-- TABLE ACTIVATE (R132). -/
def tableActivateRequest (body : List Octet) (p : Part) : Part × Answer :=
  match p.tables.stagingState with
  | .editing => (p, refuse .notChecked)
  | .checked crc =>
    if field body 1 ++ field body 2 = crc then
      (p.activate crc,
        done (octets16 crc ++ [octetOf (sectionsDisturbed p.activeTable p.tables.staging)]))
    else (p, refuse .crcMismatch)

end Sys2Proof.Machine
end

