-- ==== Sys2Proof/Machine/Images.lean ====
section
/-! DEFINITION. The image store (chapter 10): STORE, COMMISSION, ERASE STORE, write completion, the
store timer, and the reading of the image at start-up. -/

namespace Sys2Proof.Machine

/-- The CRC over the stored table equals the stored CRC (R158). -/
def ImageBody.agrees (b : ImageBody) : Bool := tableCrc b.table == b.crc

/-- The image state that reading the image gives (R158). -/
def Image.read (image : Image) : ImageState :=
  match image.marker with
  | .blank => .empty
  | .writing => .invalid
  | .valid => if image.body.agrees then .valid else .invalid
  | .commissioned => if image.body.agrees then .validCommissioned else .invalid

/-- The store timer's interval in milliseconds (R159). -/
def storeWait : Nat := 250

/-- The acceptance of a store operation: marker WRITING, image state INVALID, the operation in flight
and the store timer started (R159). -/
def ImageStore.accept (i : ImageStore) (op : StoreOp) : ImageStore :=
  { image := { i.image with marker := .writing }, state := .invalid, op := op
    timer := .running storeWait }

/-- STORE, judged in the order of R160. DESIGN CHOICE (log 25): in UNCONFIGURED with an operation in flight
R160's order gives STATE, where R159 says that every STORE is refused BUSY; the order of R160 is taken. -/
def storeRequest (_body : List Octet) (p : Part) : Part × Answer :=
  if p.evaluator = .unconfigured then (p, refuse .state)
  else if p.image.op ≠ .none then (p, refuse .busy)
  else if p.image.state = .validCommissioned then (p, refuse .commissioned)
  else
    match p.tables.active with
    | none => (p, refuse .state)
    | some a => (p.setImage (p.image.accept (.store a.table a.crc)), accepted [])

/-- There is an active CRC and the stored CRC equals it (R161). -/
def Part.storedCrcIsActive (p : Part) : Bool :=
  match p.tables.active with
  | some a => p.image.image.body.crc == a.crc
  | none => false

/-- COMMISSION (R161). -/
def commissionRequest (_body : List Octet) (p : Part) : Part × Answer :=
  if p.image.op ≠ .none then (p, refuse .busy)
  else if p.image.state ≠ .valid then (p, refuse .state)
  else if p.storedCrcIsActive = false then (p, refuse .crcMismatch)
  else (p.setImage (p.image.accept .commission), accepted [])

/-- ERASE STORE (R162). -/
def eraseStoreRequest (_body : List Octet) (p : Part) : Part × Answer :=
  if p.image.op ≠ .none then (p, refuse .busy)
  else (p.setImage (p.image.accept .erase), accepted [])

/-- The operation ends: none in flight, the timer stopped, the image and its state as given (R159). -/
def ImageStore.finish (image : Image) (state : ImageState) : ImageStore :=
  { image := image, state := state, op := .none, timer := .stopped }

/-- The end of an operation, with STORE_RESULT offered (R159). -/
def Part.finishStore (p : Part) (kind : StoreKind) (result : StoreResult) (image : Image)
    (state : ImageState) (crc : Option Crc) : Part :=
  (p.setImage (ImageStore.finish image state)).offer (.storeResult kind result state crc)

/-- The final step of a STORE or a COMMISSION of the body `written`: the closing marker is written and
the stored table, which the storage reads back as `read`, has its CRC computed. An equal CRC gives DONE,
and the image holds the table that was written (R82; log 13: what reads back with an equal CRC is taken to
be that table). Another CRC gives VERIFY_FAIL and marker WRITING (R160, R161). -/
def Part.verify (p : Part) (kind : StoreKind) (written : ImageBody) (read : Table) (marker : Marker)
    (state : ImageState) : Part :=
  if tableCrc read = written.crc then
    p.finishStore kind .done { marker := marker, body := written } state (some written.crc)
  else
    p.finishStore kind .verifyFail { marker := .writing, body := { written with table := read } }
      .invalid none

/-- The stored table as it reads back: as written, or another. -/
def readAs (written : Table) (readBack : Option Table) : Table := readBack.getD written

/-- WRITE_COMPLETION: the final step of the operation in flight; with none in flight it is ignored
(R159). DESIGN CHOICE (log 23): a late completion of an operation that was abandoned, taken while a newer
one is in flight, is taken as the newer one's; the spec gives only the case with none in flight. An ERASE
leaves the body as it stands under marker BLANK, where R162 says nothing of it (DESIGN CHOICE, log 13). -/
def Part.writeCompletion (p : Part) (readBack : Option Table) : Part :=
  let stored := p.image.image.body
  match p.image.op with
  | .none => p
  | .store table crc =>
    p.verify .store { table := table, crc := crc } (readAs table readBack) .valid .valid
  | .commission =>
    p.verify .commission stored (readAs stored.table readBack) .commissioned .validCommissioned
  | .erase => p.finishStore .erase .done { marker := .blank, body := stored } .empty none

/-- WRITE_COMPLETION (R159 to R162). -/
def execWriteCompletion (readBack : Option Table) (s : State) :
    Host.Outcome State Fault Refusal :=
  s.next (s.toPart.unlessReset fun p => p.writeCompletion readBack)

/-- The operation in flight by name. -/
def StoreOp.kind : StoreOp → Option StoreKind
  | .none => Option.none
  | .store _ _ => some .store
  | .commission => some .commission
  | .erase => some .erase

/-- STORE_TIMER_EXPIRY: the operation in flight is abandoned with TIMEOUT; the closing marker is not
written (R159). A timer that does not run has no expiry (R1). -/
def Part.storeExpiry (p : Part) : Part :=
  match p.image.timer with
  | .stopped => p
  | .running _ =>
    match p.image.op.kind with
    | none => p.setImage { p.image with timer := .stopped }
    | some kind => p.finishStore kind .timeout p.image.image .invalid none

/-- STORE_TIMER_EXPIRY (R159). -/
def execStoreTimerExpiry (s : State) : Host.Outcome State Fault Refusal :=
  s.next (s.toPart.unlessReset Part.storeExpiry)

end Sys2Proof.Machine
end

