-- ==== Sys2Proof/Machine/Reports.lean ====
section
/-! DEFINITION. The report unit (chapter 09): the report cycle, the start and the end of a count-line
transmission, HOLD and PROCEED. -/

namespace Sys2Proof.Machine

/-! ## The report cycle (R150) -/

/-- REPORT_CYCLE_EXPIRY: every present section is marked in ascending number, and the timer restarts
with the period in force (R150). A timer that does not run has no expiry (R1). -/
def Part.cycleExpiry (p : Part) : Part :=
  match p.report.cycleTimer with
  | .stopped => p
  | .running _ =>
    let marked := p.activeTable.presentSections.foldl (fun q i => q.mark i) p
    marked.setReport { marked.report with
      cycleTimer := .running p.activeTable.global.reportCycle.toNat }

/-- REPORT_CYCLE_EXPIRY (R150). -/
def execReportCycleExpiry (s : State) : Host.Outcome State Fault Refusal :=
  s.next (s.toPart.unlessReset Part.cycleExpiry)

/-! ## The transmitter's two events (R155) -/

/-- TRANSMISSION_START: the start that ends every event (`State.next`), with no other effect before it
(R155, log 5). -/
def execTransmissionStart (s : State) : Host.Outcome State Fault Refusal := s.next s.toPart

/-- A sent reply leaves the front of the reply buffer (R145). -/
def Part.dropReply (p : Part) : Part :=
  p.setCount { p.count with replies := p.count.replies.tail }

/-- The last octet of a telegram: a sent reply leaves the buffer, the noted flags are settled, and the
transmitter becomes idle (R145, R152, R155). With nothing on the line there is no last octet (log 6). -/
def Part.endTransmission (p : Part) : Part :=
  match p.report.transmitter with
  | none => p
  | some t =>
    let settled := p.setReport { p.report.settleFlags with transmitter := none }
    if t.kind = .reply then settled.dropReply else settled

/-- TRANSMISSION_END: the last octet, after which the transmitter chooses again as at the end of any
event (R145, R152, R155). -/
def execTransmissionEnd (s : State) : Host.Outcome State Fault Refusal :=
  s.next (s.toPart.unlessReset Part.endTransmission)

/-! ## Holding the line (R156, R157) -/

/-- The hold limit in UNCONFIGURED (R156). -/
def holdLimitUnconfigured : Nat := 5000

/-- The hold limit in force (R156). -/
def Part.holdLimit (p : Part) : Nat :=
  match p.tables.active with
  | some a => a.table.global.holdLimit.toNat
  | none => holdLimitUnconfigured

/-- HOLD (R156). -/
def holdRequest (_body : List Octet) (p : Part) : Part × Answer :=
  (p.setReport { p.report with held := true, holdTimer := .running p.holdLimit }, done [])

/-- PROCEED (R157). -/
def proceedRequest (_body : List Octet) (p : Part) : Part × Answer :=
  if p.report.held then
    (p.setReport { p.report with held := false, holdTimer := .stopped }, done [])
  else (p, refuse .state)

/-- HOLD_LIMIT_EXPIRY: the line is released and the hold-expired flag set (R152, R157). A timer that
does not run has no expiry (R1). -/
def Part.holdExpiry (p : Part) : Part :=
  match p.report.holdTimer with
  | .stopped => p
  | .running _ =>
    p.setReport { p.report.setHoldExpired with held := false, holdTimer := .stopped }

/-- HOLD_LIMIT_EXPIRY (R157). -/
def execHoldLimitExpiry (s : State) : Host.Outcome State Fault Refusal :=
  s.next (s.toPart.unlessReset Part.holdExpiry)

end Sys2Proof.Machine
end

