-- ==== Sys2Proof/Machine/Requests.lean ====
section
/-! DEFINITION. The count line controller's requests (chapter 08): intake, the reply buffer, STATUS
QUERY, routing by kind, and the meaning of each request command.

A request command is a telegram of its kind, addressed to the part, that passes CRC; it leaves the
receiver in WAIT (R52). Its length octet is 3 more than its body has octets, so a body of none or of
more than 34 octets is no telegram but a LENGTH bad frame (R50, R52). -/

namespace Sys2Proof.Machine

/-! ## Intake (R143 to R145) -/

/-- A request is discarded: the dropped-request count rises (R145). -/
def Part.dropRequest (p : Part) : Part :=
  p.setCount { p.count with dropped := raise8 p.count.dropped }

/-- A request addressed to the part: discarded while two replies wait (R145), answered REFUSED FORMAT
when malformed (R143), and otherwise taken by its owner, whose one reply joins the buffer (R144). -/
def Part.takeRequest (p : Part) (kind : Octet) (body : List Octet)
    (owner : List Octet → Part → Part × Answer) : Part :=
  if replyCapacity ≤ p.count.replies.length then p.dropRequest
  else if requestForm kind body then
    (owner body p).1.placeReply (field body 0) kind (owner body p).2
  else p.placeReply (field body 0) kind (refuse .format)

/-- The receive condition of the count line. -/
def Part.setCountRx (p : Part) (rx : Rx) : Part := p.setCount { p.count with rx := rx }

/-- A LENGTH bad frame on the count line (R141). -/
def Part.countBadLength (p : Part) : Part :=
  p.setCount { p.count with
    rx := .hunt
    counts := { p.count.counts with length := raise16 p.count.counts.length } }

/-- The body octets fit a telegram (R50). -/
def bodyLengthFits (body : List Octet) : Bool :=
  decide (1 ≤ body.length) && decide (body.length ≤ 34)

/-- A whole telegram has arrived on the count line and passed CRC; `f` is what its judgement does. -/
def Part.countTelegramArrives (p : Part) (body : List Octet) (f : Part → Part) : Part :=
  if bodyLengthFits body then f (p.setCountRx .wait) else p.countBadLength

/-- A request of a kind arrives, for its owner. -/
def Part.requestArrives (p : Part) (kind : Octet) (body : List Octet)
    (owner : List Octet → Part → Part × Answer) : Part :=
  p.countTelegramArrives body fun q => q.takeRequest kind body owner

/-! ## STATUS QUERY (R148) -/

/-- The dropped-request count and the bad-frame counts are set to 0 (R148). -/
def CountLine.cleared (c : CountLine) : CountLine := { c with dropped := 0, counts := .zero }

/-- The active CRC, or none (R87). -/
def Part.activeCrc (p : Part) : Option Crc := p.tables.active.map (·.crc)

/-- STATUS QUERY (R148). -/
def statusQueryRequest (_body : List Octet) (p : Part) : Part × Answer :=
  (p.setCount p.count.cleared,
    done ([codeEvaluator p.evaluator] ++ optional 2 (p.activeCrc.map octets16) ++
      [codeStagingState p.tables.stagingState, codeImageState p.image.state,
        codeStoreOp p.image.op, codeFlag p.report.held, codeFlag p.report.overrun,
        octetOf p.count.dropped] ++
      twoOctets p.count.counts.syncMiss ++ twoOctets p.count.counts.length ++
      twoOctets p.count.counts.charTimeout ++ twoOctets p.count.counts.crc))

/-! ## Routing (R144, 8.4) -/

/-- A kind octet that names no request is malformed, and no owner takes it (R143). -/
def noOwner (_body : List Octet) (p : Part) : Part × Answer := (p, refuse .format)

/-- The owner of a kind of request. -/
def ownerOf (kind : Octet) : List Octet → Part → Part × Answer :=
  if kind = kindStatusQuery then statusQueryRequest
  else if kind = kindSectionQuery then sectionQueryRequest
  else if kind = kindStart then startRequest
  else if kind = kindHalt then haltRequest
  else if kind = kindSectionReset then sectionResetRequest
  else if kind = kindHeadQuery then headQueryRequest
  else if kind = kindHeadRelease then headReleaseRequest
  else if kind = kindHeadAdopt then headAdoptRequest
  else if kind = kindLinkQuery then linkQueryRequest
  else if kind = kindHeadRelay then headRelayRequest
  else if kind = kindTableWrite then tableWriteRequest
  else if kind = kindTableRead then tableReadRequest
  else if kind = kindTableCopy then tableCopyRequest
  else if kind = kindTableCheck then tableCheckRequest
  else if kind = kindTableActivate then tableActivateRequest
  else if kind = kindStore then storeRequest
  else if kind = kindCommission then commissionRequest
  else if kind = kindEraseStore then eraseStoreRequest
  else if kind = kindHold then holdRequest
  else if kind = kindProceed then proceedRequest
  else noOwner

/-- A telegram of the count line that passed CRC, its receiver in WAIT: ignored when its address
differs from the part address read now, and otherwise taken as a request (R142, R143). -/
def Part.judgeCountTelegram (p : Part) (address kind : Octet) (body : List Octet) : Part :=
  if address = p.ownAddress then p.takeRequest kind body (ownerOf kind) else p

/-! ## The commands -/

/-- STATUS_QUERY (R148). -/
def execStatusQuery (body : List Octet) (s : State) : Host.Outcome State Fault Refusal :=
  s.next (s.toPart.unlessReset fun p => p.requestArrives kindStatusQuery body statusQueryRequest)

/-- SECTION_QUERY (R110). -/
def execSectionQuery (body : List Octet) (s : State) : Host.Outcome State Fault Refusal :=
  s.next (s.toPart.unlessReset fun p => p.requestArrives kindSectionQuery body sectionQueryRequest)

/-- START (R90). -/
def execStart (body : List Octet) (s : State) : Host.Outcome State Fault Refusal :=
  s.next (s.toPart.unlessReset fun p => p.requestArrives kindStart body startRequest)

/-- HALT (R91). -/
def execHalt (body : List Octet) (s : State) : Host.Outcome State Fault Refusal :=
  s.next (s.toPart.unlessReset fun p => p.requestArrives kindHalt body haltRequest)

/-- SECTION_RESET (R111). -/
def execSectionReset (body : List Octet) (s : State) : Host.Outcome State Fault Refusal :=
  s.next (s.toPart.unlessReset fun p => p.requestArrives kindSectionReset body sectionResetRequest)

/-- HEAD_QUERY (R47). -/
def execHeadQuery (body : List Octet) (s : State) : Host.Outcome State Fault Refusal :=
  s.next (s.toPart.unlessReset fun p => p.requestArrives kindHeadQuery body headQueryRequest)

/-- HEAD_RELEASE (R48). -/
def execHeadRelease (body : List Octet) (s : State) : Host.Outcome State Fault Refusal :=
  s.next (s.toPart.unlessReset fun p => p.requestArrives kindHeadRelease body headReleaseRequest)

/-- HEAD_ADOPT (R49). -/
def execHeadAdopt (body : List Octet) (s : State) : Host.Outcome State Fault Refusal :=
  s.next (s.toPart.unlessReset fun p => p.requestArrives kindHeadAdopt body headAdoptRequest)

/-- LINK_QUERY (R59). -/
def execLinkQuery (body : List Octet) (s : State) : Host.Outcome State Fault Refusal :=
  s.next (s.toPart.unlessReset fun p => p.requestArrives kindLinkQuery body linkQueryRequest)

/-- HEAD_RELAY (R63). -/
def execHeadRelay (body : List Octet) (s : State) : Host.Outcome State Fault Refusal :=
  s.next (s.toPart.unlessReset fun p => p.requestArrives kindHeadRelay body headRelayRequest)

/-- TABLE_WRITE (R128). -/
def execTableWrite (body : List Octet) (s : State) : Host.Outcome State Fault Refusal :=
  s.next (s.toPart.unlessReset fun p => p.requestArrives kindTableWrite body tableWriteRequest)

/-- TABLE_READ (R129). -/
def execTableRead (body : List Octet) (s : State) : Host.Outcome State Fault Refusal :=
  s.next (s.toPart.unlessReset fun p => p.requestArrives kindTableRead body tableReadRequest)

/-- TABLE_COPY (R130). -/
def execTableCopy (body : List Octet) (s : State) : Host.Outcome State Fault Refusal :=
  s.next (s.toPart.unlessReset fun p => p.requestArrives kindTableCopy body tableCopyRequest)

/-- TABLE_CHECK (R131). -/
def execTableCheck (body : List Octet) (s : State) : Host.Outcome State Fault Refusal :=
  s.next (s.toPart.unlessReset fun p => p.requestArrives kindTableCheck body tableCheckRequest)

/-- TABLE_ACTIVATE (R132). -/
def execTableActivate (body : List Octet) (s : State) : Host.Outcome State Fault Refusal :=
  s.next (s.toPart.unlessReset fun p => p.requestArrives kindTableActivate body tableActivateRequest)

/-- STORE (R160). -/
def execStore (body : List Octet) (s : State) : Host.Outcome State Fault Refusal :=
  s.next (s.toPart.unlessReset fun p => p.requestArrives kindStore body storeRequest)

/-- COMMISSION (R161). -/
def execCommission (body : List Octet) (s : State) : Host.Outcome State Fault Refusal :=
  s.next (s.toPart.unlessReset fun p => p.requestArrives kindCommission body commissionRequest)

/-- ERASE_STORE (R162). -/
def execEraseStore (body : List Octet) (s : State) : Host.Outcome State Fault Refusal :=
  s.next (s.toPart.unlessReset fun p => p.requestArrives kindEraseStore body eraseStoreRequest)

/-- HOLD (R156). -/
def execHold (body : List Octet) (s : State) : Host.Outcome State Fault Refusal :=
  s.next (s.toPart.unlessReset fun p => p.requestArrives kindHold body holdRequest)

/-- PROCEED (R157). -/
def execProceed (body : List Octet) (s : State) : Host.Outcome State Fault Refusal :=
  s.next (s.toPart.unlessReset fun p => p.requestArrives kindProceed body proceedRequest)

/-- REQUEST_OF_UNKNOWN_KIND (R143). The kind octet decides: one of the catalogue is that request. -/
def execRequestOfUnknownKind (kind : Octet) (body : List Octet) (s : State) :
    Host.Outcome State Fault Refusal :=
  s.next (s.toPart.unlessReset fun p => p.requestArrives kind body (ownerOf kind))

/-- TELEGRAM_ADDRESSED_ELSEWHERE (R142). The address decides: the part's own makes it a request. -/
def execTelegramAddressedElsewhere (address kind : Octet) (body : List Octet) (s : State) :
    Host.Outcome State Fault Refusal :=
  s.next (s.toPart.unlessReset fun p =>
    p.countTelegramArrives body fun q => q.judgeCountTelegram address kind body)

end Sys2Proof.Machine
end

