-- ==== Sys2Proof/Machine/Reception.lean ====
section
/-! DEFINITION. The receivers, octet by octet (R50 to R52, R55, R141), and the reception commands.

A reception command gives its octets to the line's receiver one after the other. What comes of them,
a bad frame, a good telegram or a telegram still in FRAME, is for the rules and not for the row's
name to say. Each octet is taken whole before the next, and so is the expiry of the character wait after
them: an idle transmitter starts at once after each (R155; log 8). -/

namespace Sys2Proof.Machine

/-! ## The count line's receiver (R141) -/

/-- A SYNC_MISS, CHAR_TIMEOUT or CRC bad frame on the count line (R141); LENGTH is
`Part.countBadLength`. -/
def Part.countBadFrame (p : Part) (f : CountLineCounts → CountLineCounts) : Part :=
  p.setCount { p.count with rx := .hunt, counts := f p.count.counts }

/-- One more SYNC_MISS. -/
def CountLineCounts.raiseSyncMiss (c : CountLineCounts) : CountLineCounts :=
  { c with syncMiss := raise16 c.syncMiss }

/-- One more CHAR_TIMEOUT. -/
def CountLineCounts.raiseCharTimeout (c : CountLineCounts) : CountLineCounts :=
  { c with charTimeout := raise16 c.charTimeout }

/-- One more CRC bad frame. -/
def CountLineCounts.raiseCrc (c : CountLineCounts) : CountLineCounts :=
  { c with crc := raise16 c.crc }

/-- One octet on the count line (R51, R52, R141, R142). -/
def Part.countOctet (p : Part) (octet : Octet) : Part :=
  match p.count.rx with
  | .wait =>
    if octet = sync then p.setCountRx (.frame [])
    else p.countBadFrame CountLineCounts.raiseSyncMiss
  | .hunt => if octet = sync then p.setCountRx (.frame []) else p
  | .frame octets =>
    let taken := octets ++ [octet]
    match judgeFrame taken with
    | .more => p.setCountRx (.frame taken)
    | .badLength => p.countBadLength
    | .badCrc => p.countBadFrame CountLineCounts.raiseCrc
    | .good =>
      (p.setCountRx .wait).judgeCountTelegram (addressOctet taken) (kindOctet taken)
        (bodyOctets taken)

/-- The character wait of the count line expires (R52, R141). DESIGN CHOICE (log 24): in WAIT and HUNT
there is none, and nothing changes. -/
def Part.countCharTimeout (p : Part) : Part :=
  match p.count.rx with
  | .frame _ => p.countBadFrame CountLineCounts.raiseCharTimeout
  | .wait => p
  | .hunt => p

/-- A gap of more than 4 octet times on the count line (R51, R52). -/
def Part.countQuiet (p : Part) : Part :=
  let q := p.countCharTimeout
  q.setCountRx q.count.rx.quiet

/-! ## Any line -/

/-- One octet arrives on a line. -/
def Part.lineOctet (p : Part) (line : Line) (octet : Octet) : Part :=
  match line with
  | .headLink l => p.linkOctet l octet
  | .countLine => p.countOctet octet

/-- Octets arrive on a line, one after the other, each taken whole: what one of them completes has its
start on the count line before the next arrives (R155). -/
def Part.lineOctets (p : Part) (line : Line) (octets : List Octet) : Part :=
  octets.foldl (fun q octet => (q.lineOctet line octet).afterEvent) p

/-- The character wait of a line expires (R52). -/
def Part.lineCharTimeout (p : Part) (line : Line) : Part :=
  match line with
  | .headLink l => p.linkCharWait l
  | .countLine => p.countCharTimeout

/-- A quiet interval on a line (R51). -/
def Part.lineQuiet (p : Part) (line : Line) : Part :=
  match line with
  | .headLink l => p.linkQuiet l
  | .countLine => p.countQuiet

/-! ## The commands -/

/-- SYNC_MISS: one octet arrives, judged by the receive condition (R51, R55, R141). -/
def execSyncMiss (line : Line) (octet : Octet) (s : State) : Host.Outcome State Fault Refusal :=
  s.next (s.toPart.unlessReset fun p => p.lineOctet line octet)

/-- LENGTH_BAD_FRAME: the octets up to the length octet arrive (R52). -/
def execLengthBadFrame (line : Line) (octets : List Octet) (s : State) :
    Host.Outcome State Fault Refusal :=
  s.next (s.toPart.unlessReset fun p => p.lineOctets line octets)

/-- CHAR_TIMEOUT: octets arrive, and the character wait after them expires (R52). -/
def execCharTimeout (line : Line) (octets : List Octet) (s : State) :
    Host.Outcome State Fault Refusal :=
  s.next (s.toPart.unlessReset fun p => (p.lineOctets line octets).lineCharTimeout line)

/-- CRC_BAD_FRAME: the octets of a telegram arrive (R52). -/
def execCrcBadFrame (line : Line) (octets : List Octet) (s : State) :
    Host.Outcome State Fault Refusal :=
  s.next (s.toPart.unlessReset fun p => p.lineOctets line octets)

/-- QUIET_INTERVAL: a gap of more than 4 octet times (R51). -/
def execQuietInterval (line : Line) (s : State) : Host.Outcome State Fault Refusal :=
  s.next (s.toPart.unlessReset fun p => p.lineQuiet line)

/-- HEAD_STATUS_TELEGRAM: the octets of a telegram arrive on a head link (R53 to R60). -/
def execHeadStatusTelegram (l : LinkId) (octets : List Octet) (s : State) :
    Host.Outcome State Fault Refusal :=
  s.next (s.toPart.unlessReset fun p => p.lineOctets (.headLink l) octets)

end Sys2Proof.Machine
end

