-- ==== Sys2Proof/Machine/Resets.lean ====
section
/-! DEFINITION. The pins: full reset, the start-up sequence, and the straps (R142, R163). -/

namespace Sys2Proof.Machine

/-- Every block takes its reset values; the pins and the image are kept (R158, R163). DESIGN CHOICE
(log 22): the image state, which the start-up sequence sets, stands as it was until then. -/
def Part.fullReset (p : Part) : Part := Part.resetValues p.pins p.image.image p.image.state

/-- The start-up load (R126, R163 step 2): the stored table becomes the active table and a CHECKED
copy in staging, the present sections enter DISTURBED with START_UP in ascending number, the
evaluator takes the start mode (RUN is coded 1), each enabled link goes to SEARCH, and the
report-cycle timer starts. -/
def Part.startUpLoad (p : Part) (body : ImageBody) : Part :=
  let loaded := p.setTables
    { active := some { table := body.table, crc := body.crc }, staging := body.table
      stagingState := .checked body.crc, lastCheck := .pass body.crc }
  let disturbed := body.table.presentSections.foldl (fun q i => q.disturb i .startUp) loaded
  let evaluated := disturbed.setEvaluator
    (if body.table.global.startMode = 1 then .running else .halted)
  let linked := (List.finRange 4).foldl
    (fun q l => if body.table.global.enabled[l] then q.setLink l (q.link l).toSearch else q)
    evaluated
  linked.setReport { linked.report with
    cycleTimer := .running body.table.global.reportCycle.toNat }

/-- The start-up sequence: the image is read and its state set, and a VALID or VALID_COMMISSIONED
image is loaded (R163). -/
def Part.startUp (p : Part) : Part :=
  let state := p.image.image.read
  let q := p.setImage { p.image with state := state }
  if state = .valid ∨ state = .validCommissioned then q.startUpLoad p.image.image.body else q

/-- What asserts the full reset, on the pins (R163). -/
def Pins.assertReset (pins : Pins) : ResetCause → Pins
  | .powerOn => { pins with powerOnHold := true }
  | .resetPin => { pins with resetHold := true }
  | .strapZero => { pins with address := 0 }

/-- What ends it, on the pins (R163). -/
def Pins.endReset (pins : Pins) : ResetEnd → Pins
  | .powerOnComplete => { pins with powerOnHold := false }
  | .resetPinReleased => { pins with resetHold := false }
  | .strapReturned address => { pins with address := address }

/-- A part in full reset whose pins no longer hold it takes the reset values and then the start-up
sequence, as one event; while another cause holds it, it stays in reset (R163). -/
def Part.leaveReset (p : Part) : Part := if p.inReset then p else p.fullReset.startUp

/-- FULL_RESET (R163). -/
def execFullReset (cause : ResetCause) (s : State) : Host.Outcome State Fault Refusal :=
  s.next (s.toPart.setPins (s.pins.assertReset cause)).fullReset

/-- FULL_RESET_END (R163). A part that is not in full reset has none to end. -/
def execFullResetEnd (event : ResetEnd) (s : State) : Host.Outcome State Fault Refusal :=
  s.next
    (if s.toPart.inReset then (s.toPart.setPins (s.pins.endReset event)).leaveReset else s.toPart)

/-- The address straps change: to 0 they hold the part in full reset, from 0 they end that hold, and
from one part address to another they are read anew by the next telegram judged and the next
transmission (R142, R163). -/
def Part.changeAddress (p : Part) (address : BitVec 4) : Part :=
  let q := p.setPins { p.pins with address := address }
  if address = 0 then q.fullReset
  else if p.inReset then q.leaveReset
  else q

/-- ADDRESS_STRAP_CHANGE (R142). -/
def execAddressStrapChange (address : BitVec 4) (s : State) : Host.Outcome State Fault Refusal :=
  s.next (s.toPart.changeAddress address)

/-- The lines' share of a rate strap change, the links in ascending number and then the count line:
a telegram in FRAME ends as CHAR_TIMEOUT, a candidate is dropped (R142). -/
def Part.rateChange (p : Part) : Part :=
  ((List.finRange 4).foldl (fun q l => q.linkCharTimeout l) p).countCharTimeout

/-- RATE_STRAP_CHANGE (R142). A strap that keeps its value does not change. -/
def execRateStrapChange (rate : Rate) (s : State) : Host.Outcome State Fault Refusal :=
  s.next
    (if s.pins.rate = rate then s.toPart
      else (s.toPart.setPins { s.pins with rate := rate }).unlessReset Part.rateChange)

end Sys2Proof.Machine
end

