-- ==== Sys2Proof/Machine/Timing.lean ====
section
/-! DEFINITION. What the part does on its own when no command waits: it starts a relay transmission that
is due, or else one millisecond of its time base passes (R1, R61; log 3, 4, 5). -/

namespace Sys2Proof.Machine

/-- A map over a vector that the kernel can evaluate. -/
def mapVector {α : Type} {n : Nat} (f : α → α) (v : Vector α n) : Vector α n :=
  ⟨⟨v.toList.map f⟩, by simp⟩

/-- One millisecond of a running timer passes (R1). -/
def Timer.countDown : Timer → Timer
  | .stopped => .stopped
  | .running left => .running (left - 1)

/-- The interval of the timer has ended. -/
def Timer.isDue : Timer → Bool
  | .stopped => false
  | .running left => left == 0

/-- Every timer of the part counts one millisecond down (R1). -/
def Part.countDown (p : Part) : Part :=
  { p with
    heads := mapVector (fun r => { r with silence := r.silence.countDown }) p.heads
    sections := mapVector (fun r => { r with confirm := r.confirm.countDown }) p.sections
    links := mapVector (fun r => { r with timer := r.timer.countDown }) p.links
    report := { p.report with
      holdTimer := p.report.holdTimer.countDown
      cycleTimer := p.report.cycleTimer.countDown }
    image := { p.image with timer := p.image.timer.countDown } }

/-- An expiry that is due is an event: it is taken whole, and an idle transmitter then starts at once
(R1, R155). -/
def Part.takeDue (p : Part) (due : Bool) (expiry : Part → Part) : Part :=
  if due then (expiry p).afterEvent else p

/-- The silence expiries that are due, in ascending head number. -/
def Part.dueSilence (p : Part) : Part :=
  (List.finRange 32).foldl
    (fun q h => q.takeDue (q.head h).silence.isDue fun r => r.silenceExpiry h) p

/-- The confirm expiries that are due, in ascending section number. -/
def Part.dueConfirm (p : Part) : Part :=
  (List.finRange 24).foldl
    (fun q i => q.takeDue (q.sec i).confirm.isDue fun r => r.confirmExpiry i) p

/-- The relay timer expiries that are due, in ascending link number. -/
def Part.dueRelay (p : Part) : Part :=
  (List.finRange 4).foldl
    (fun q l => q.takeDue (q.link l).timer.isDue fun r => r.relayExpiry l) p

/-- The expiries of the part's three single timers that are due. -/
def Part.dueSingle (p : Part) : Part :=
  let q := p.takeDue p.report.holdTimer.isDue Part.holdExpiry
  let r := q.takeDue q.report.cycleTimer.isDue Part.cycleExpiry
  r.takeDue r.image.timer.isDue Part.storeExpiry

/-- One millisecond passes: the running timers count down, and each that has reached its expiry has
it. DESIGN CHOICE (log 4): expiries of the same millisecond are taken in this order, each as an event of
its own. -/
def Part.tick (p : Part) : Part := p.countDown.dueSilence.dueConfirm.dueRelay.dueSingle

/-- The first link whose relay transmission may start (R61). -/
def Part.relayDue (p : Part) : Option LinkId :=
  (List.finRange 4).find? fun l => (p.link l).relayReady

/-- What a part whose queue is empty does: a relay transmission that is due starts, else a millisecond
passes. -/
def Part.onItsOwn (p : Part) : Part :=
  match p.relayDue with
  | some l => p.relayStart l
  | none => p.tick

/-- The empty queue's step; a part held in full reset does nothing. -/
def idle (s : State) : Host.Outcome State Fault Refusal :=
  s.next (s.toPart.unlessReset Part.onItsOwn)

end Sys2Proof.Machine
end

