-- ==== Sys2Proof/Machine/Dispatch.lean ====
section
/-! DEFINITION. The meaning of each command: one arm per row of the opcode table. -/

namespace Sys2Proof.Machine

def exec (i : Instr) (s : State) : Host.Outcome State Fault Refusal :=
  match i with
  | .fullReset cause => Sys2Proof.Machine.execFullReset cause s
  | .addressStrapChange address => Sys2Proof.Machine.execAddressStrapChange address s
  | .rateStrapChange rate => Sys2Proof.Machine.execRateStrapChange rate s
  | .syncMiss line octet => Sys2Proof.Machine.execSyncMiss line octet s
  | .lengthBadFrame line octets => Sys2Proof.Machine.execLengthBadFrame line octets s
  | .charTimeout line octets => Sys2Proof.Machine.execCharTimeout line octets s
  | .crcBadFrame line octets => Sys2Proof.Machine.execCrcBadFrame line octets s
  | .quietInterval line => Sys2Proof.Machine.execQuietInterval line s
  | .headStatusTelegram link octets => Sys2Proof.Machine.execHeadStatusTelegram link octets s
  | .silenceExpiry head => Sys2Proof.Machine.execSilenceExpiry head s
  | .confirmExpiry sec => Sys2Proof.Machine.execConfirmExpiry sec s
  | .relayTransmissionStart link => Sys2Proof.Machine.execRelayTransmissionStart link s
  | .relayTransmissionEnd link => Sys2Proof.Machine.execRelayTransmissionEnd link s
  | .relayTimerExpiry link => Sys2Proof.Machine.execRelayTimerExpiry link s
  | .statusQuery body => Sys2Proof.Machine.execStatusQuery body s
  | .sectionQuery body => Sys2Proof.Machine.execSectionQuery body s
  | .start body => Sys2Proof.Machine.execStart body s
  | .halt body => Sys2Proof.Machine.execHalt body s
  | .sectionReset body => Sys2Proof.Machine.execSectionReset body s
  | .headQuery body => Sys2Proof.Machine.execHeadQuery body s
  | .headRelease body => Sys2Proof.Machine.execHeadRelease body s
  | .headAdopt body => Sys2Proof.Machine.execHeadAdopt body s
  | .linkQuery body => Sys2Proof.Machine.execLinkQuery body s
  | .headRelay body => Sys2Proof.Machine.execHeadRelay body s
  | .tableWrite body => Sys2Proof.Machine.execTableWrite body s
  | .tableRead body => Sys2Proof.Machine.execTableRead body s
  | .tableCopy body => Sys2Proof.Machine.execTableCopy body s
  | .tableCheck body => Sys2Proof.Machine.execTableCheck body s
  | .tableActivate body => Sys2Proof.Machine.execTableActivate body s
  | .store body => Sys2Proof.Machine.execStore body s
  | .commission body => Sys2Proof.Machine.execCommission body s
  | .eraseStore body => Sys2Proof.Machine.execEraseStore body s
  | .writeCompletion readBack => Sys2Proof.Machine.execWriteCompletion readBack s
  | .storeTimerExpiry => Sys2Proof.Machine.execStoreTimerExpiry s
  | .hold body => Sys2Proof.Machine.execHold body s
  | .proceed body => Sys2Proof.Machine.execProceed body s
  | .holdLimitExpiry => Sys2Proof.Machine.execHoldLimitExpiry s
  | .reportCycleExpiry => Sys2Proof.Machine.execReportCycleExpiry s
  | .transmissionStart => Sys2Proof.Machine.execTransmissionStart s
  | .transmissionEnd => Sys2Proof.Machine.execTransmissionEnd s
  | .fullResetEnd event => Sys2Proof.Machine.execFullResetEnd event s
  | .telegramAddressedElsewhere address kind body => Sys2Proof.Machine.execTelegramAddressedElsewhere address kind body s
  | .requestOfUnknownKind kind body => Sys2Proof.Machine.execRequestOfUnknownKind kind body s

end Sys2Proof.Machine
end

