-- ==== Sys2Proof/Machine/Step.lean ====
section
/-! DEFINITION. One step: the command at the front of the queue, or the part's own doing when the
queue is empty. -/

namespace Sys2Proof.Machine

/-- Takes the command at the front of the queue and runs it with the queue's rest. An empty queue
lets the part act on its own (log 3). -/
def step (s : State) : Host.Outcome State Fault Refusal :=
  match s.pending with
  | [] => idle s
  | c :: rest => exec c { s with pending := rest }

/-- The state with the command that a word spells at the front of its queue; no word spells one. -/
def State.withFetchWord (s : State) (nbits w : Nat) : State :=
  match Sys2Proof.decodeTableWord nbits w with
  | some c => { s with pending := c :: s.pending }
  | none => s

end Sys2Proof.Machine
end

