-- ==== Sys2Proof/Safety.lean ====
section
/-! DEFINITION. What counts as a sound state of the part: the laws that the spec names in its prose
(Law 1 to Law 12) and the fixed relations between fields of one record; and when octets make a telegram. -/

namespace Sys2Proof.Machine

/-- Laws 5, 6, 8 and 11 and R154: no queue or buffer holds more than its capacity, and the report
queue holds no section twice. -/
structure Part.QueuesBounded (p : Part) : Prop where
  replies : p.count.replies.length ≤ 2
  notices : p.report.notices.length ≤ 16
  mirrors : p.report.mirrors.length ≤ 4
  reports : p.report.queue.Nodup
  relays  : ∀ l, (p.link l).queue.length ≤ 2

/-- Something waits that an idle count-line transmitter would start (R155). -/
def Part.transmissionDue (p : Part) : Bool :=
  p.report.transmitter.isNone &&
    (!p.count.replies.isEmpty ||
      (!p.report.held &&
        (!p.report.queue.isEmpty || !p.report.notices.isEmpty || !p.report.mirrors.isEmpty)))

/-- R2: a decoder's entry side is NONE exactly when its phase is FREE. -/
def Part.SidesAgree (p : Part) : Prop :=
  ∀ h, (p.decoder h).side = .none ↔ (p.decoder h).phase = .free

/-- R18: in every state but IN_SERVICE a head's decoder shows FREE, NONE and rock count 0. -/
def Part.DecodersAtRest (p : Part) : Prop :=
  ∀ h, (p.head h).state ≠ .inService →
    (p.decoder h).phase = .free ∧ (p.decoder h).side = .none ∧ (p.decoder h).rock = 0

/-- R25: a head's silence timer runs exactly while the head is ACQUIRING or IN_SERVICE. -/
def Part.SilenceTimers (p : Part) : Prop :=
  ∀ h, (p.head h).silence ≠ .stopped ↔
    (p.head h).state = .acquiring ∨ (p.head h).state = .inService

/-- R92, R100: a section's confirm timer runs exactly while the section is CLEARING. -/
def Part.ConfirmTimers (p : Part) : Prop :=
  ∀ i, (p.sec i).confirm ≠ .stopped ↔ (p.sec i).state = .clearing

/-- R62, R64: the commands behind the front of a relay queue are WAITING, and a link's relay timer runs
exactly while its front command is AWAITING_ECHO. -/
def Part.RelaysSound (p : Part) : Prop :=
  ∀ l, (∀ c ∈ (p.link l).queue.tail, c.stage = .waiting) ∧
    ((p.link l).timer ≠ .stopped ↔
      ∃ c, (p.link l).queue.head? = some c ∧ c.stage = .awaitingEcho)

/-- Law 3 (R89): while the evaluator is not RUNNING, every present section is DISTURBED. -/
def Part.HaltedDisturbed (p : Part) : Prop :=
  p.evaluator ≠ .running → ∀ i, (p.sectionCfg i).present = true → (p.sec i).state = .disturbed

/-- Law 2 (R99) for one section, against its count limit, with the sweep flag of R116, which is clear
in every state but RESTORING. -/
def SectionRec.countSound (limit : Nat) (r : SectionRec) : Prop :=
  match r.state with
  | .absent => r.count = 0 ∧ r.sweep = false
  | .clear => r.count = 0 ∧ r.sweep = false
  | .clearing => r.count = 0 ∧ r.sweep = false
  | .disturbed => r.count = 0 ∧ r.sweep = false
  | .occupied => 1 ≤ r.count ∧ r.count ≤ limit ∧ r.sweep = false
  | .restoring => r.count ≤ limit ∧ (r.sweep = true ↔ 1 ≤ r.count)

/-- Law 2 (R99, R116) for every section present in the active table. -/
def Part.CountsSound (p : Part) : Prop :=
  ∀ i, (p.sectionCfg i).present = true →
    (p.sec i).countSound (p.sectionCfg i).countLimit.toNat

/-- Law 1 (R104): a present section in any state other than DISTURBED has every head of its boundary
list in IN_SERVICE. -/
def Part.BoundariesInService (p : Part) : Prop :=
  ∀ i h, (p.sectionCfg i).present = true → (p.sec i).state ≠ .disturbed →
    (p.sectionCfg i).names h = true → (p.head h).state = .inService

/-- Law 9 (R44): a head is IN_SERVICE only while it is present in the active table and its link is
LOCKED. -/
def Part.HeadsOnLockedLinks (p : Part) : Prop :=
  ∀ h, (p.head h).state = .inService → (p.headCfg h).present = true ∧
    ∃ l, linkOf (p.headCfg h).link = some l ∧ (p.link l).state = .locked

/-- R82: a staging table that is CHECKED passes checks C1 to C8. -/
def Part.StagingSound (p : Part) : Prop :=
  ∀ crc, p.tables.stagingState = .checked crc → p.tables.staging.firstFailure = none

/-- R82: the active table passes checks C1 to C8 while it exists. -/
def Part.ActiveSound (p : Part) : Prop :=
  ∀ a, p.tables.active = some a → a.table.firstFailure = none

/-- R82: the table of an image that is marked or known as valid, the table that a STORE writes, and the
table that a COMMISSION marks, pass C1 to C8. -/
structure Part.StoredSound (p : Part) : Prop where
  marked       : p.image.image.marker = .valid ∨ p.image.image.marker = .commissioned →
    p.image.image.body.table.firstFailure = none
  known        : p.image.state = .valid ∨ p.image.state = .validCommissioned →
    p.image.image.body.table.firstFailure = none
  storing      : ∀ t crc, p.image.op = .store t crc → t.firstFailure = none
  commissioned : p.image.op = .commission → p.image.image.body.table.firstFailure = none

/-- R159: while a store operation is in flight the image state is INVALID and the marker WRITING,
and the store timer runs exactly then. -/
def Part.StoreSound (p : Part) : Prop :=
  (p.image.op ≠ .none → p.image.state = .invalid ∧ p.image.image.marker = .writing) ∧
    (p.image.timer ≠ .stopped ↔ p.image.op ≠ .none)

/-- R87, R125, R158, R160, R161: a CRC that the part keeps with a table is the CRC of that table, where a
rule rests on it: the staging CRC, the active CRC, the CRC that a STORE writes, and the stored CRC of an
image that is known as valid or that a COMMISSION marks; and an image known as valid has its marker. -/
structure Part.CrcsSound (p : Part) : Prop where
  staging      : ∀ crc, p.tables.stagingState = .checked crc → tableCrc p.tables.staging = crc
  active       : ∀ a, p.tables.active = some a → tableCrc a.table = a.crc
  storing      : ∀ t crc, p.image.op = .store t crc → tableCrc t = crc
  commissioned : p.image.op = .commission → p.image.image.body.agrees = true
  known        : p.image.state = .valid ∨ p.image.state = .validCommissioned →
    p.image.image.body.agrees = true
  valid        : p.image.state = .valid → p.image.image.marker = .valid
  marked       : p.image.state = .validCommissioned → p.image.image.marker = .commissioned

/-- R88, R92, R150: the evaluator is UNCONFIGURED exactly while there is no active table, the
report-cycle timer is stopped exactly then, and a section is ABSENT exactly while it is not present in
the active table. -/
structure Part.ConfiguredSound (p : Part) : Prop where
  evaluator : p.evaluator = .unconfigured ↔ p.tables.active = none
  cycle     : p.report.cycleTimer = .stopped ↔ p.tables.active = none
  absent    : ∀ i, (p.sec i).state = .absent ↔ (p.sectionCfg i).present = false

/-- R156, R157: the hold-limit timer runs exactly while the line is held. -/
def Part.HoldSound (p : Part) : Prop :=
  p.report.holdTimer ≠ .stopped ↔ p.report.held = true

/-- R82: the staging table while CHECKED, the active table, and what the image store holds or writes,
all pass C1 to C8. -/
structure Part.TablesSound (p : Part) : Prop where
  staging : p.StagingSound
  active  : p.ActiveSound
  stored  : p.StoredSound

/-- R25, R100, R156, R159: each timer with a fixed owner runs exactly in its owner's state. -/
structure Part.TimersSound (p : Part) : Prop where
  silence : p.SilenceTimers
  confirm : p.ConfirmTimers
  hold    : p.HoldSound
  store   : p.StoreSound

/-- The octets that follow a SYNC and do not yet complete a telegram or end it (R52). -/
def incomplete (octets : List Octet) : Prop :=
  match octets with
  | _ :: length :: rest => 4 ≤ length.toNat ∧ length.toNat ≤ 37 ∧ rest.length < length.toNat
  | _ => True

/-- The octets that follow the SYNC of a telegram, as many as its length octet gives (R50). -/
def complete (octets : List Octet) : Prop :=
  match octets with
  | _ :: length :: rest => 4 ≤ length.toNat ∧ length.toNat ≤ 37 ∧ rest.length = length.toNat
  | _ => False

end Sys2Proof.Machine
end

