-- ==== Sys2Proof/Certificates/Slice0/Obligations.lean ====
section
/-! DEFINITION. The statements for the provers. Each answers a question about a command or about every
step, and names in its docstring the rules it comes from. A next state is written as the state before
with the fields that change, so that everything it does not name is unchanged. -/

namespace Sys2Proof.Machine

/-! ## Words the statements share -/

/-- The part is not held in full reset. -/
def State.awake (s : State) : Prop := s.toPart.inReset = false

/-- The part is awake and its idle count-line transmitter has nothing that may start, as every step leaves it
(`Obligations.TransmitterChooses`; R155). -/
def State.settled (s : State) : Prop := s.awake ∧ s.transmissionDue = false

/-- The part is awake and its reply buffer has room (R145). -/
def State.hasRoom (s : State) : Prop := s.awake ∧ s.count.replies.length < 2

/-- The count line controller after a request that it took has been answered: the receiver is in WAIT
and the reply has joined the buffer at the back. -/
def State.answered (s : State) (tag kind : Octet) (outcome : ReplyOutcome) (items : List Octet) :
    CountLine :=
  { s.count with
    rx := .wait
    replies := s.count.replies ++ [{ tag := tag, kind := kind, outcome := outcome, items := items }] }

/-- The request was refused, and nothing but the reply changed. -/
def State.refusedWith (s : State) (tag kind : Octet) (reason : Reason) (items : List Octet) :
    Host.Outcome State Fault Refusal :=
  .next (State.afterEvent { s with count := s.answered tag kind (.refused reason) items })

/-- The request was answered DONE, and nothing but the reply changed. -/
def State.doneWith (s : State) (tag kind : Octet) (items : List Octet) :
    Host.Outcome State Fault Refusal :=
  .next (State.afterEvent { s with count := s.answered tag kind .done items })

/-- The request was answered with an outcome, and the part is `p` but for the reply. -/
def State.answeredAfter (s : State) (p : Part) (tag kind : Octet) (outcome : ReplyOutcome)
    (items : List Octet) : Host.Outcome State Fault Refusal :=
  .next (State.afterEvent { s with toPart := { p with count := s.answered tag kind outcome items } })

/-- The twenty kinds of request with the command of each (R166). -/
def requestCommands : List (Octet × (List Octet → Instr)) :=
  [(0x10, .statusQuery), (0x11, .sectionQuery), (0x12, .start), (0x13, .halt), (0x14, .sectionReset),
    (0x15, .headQuery), (0x16, .headRelease), (0x17, .headAdopt), (0x18, .linkQuery),
    (0x19, .headRelay), (0x1A, .tableWrite), (0x1B, .tableRead), (0x1C, .tableCopy),
    (0x1D, .tableCheck), (0x1E, .tableActivate), (0x1F, .store), (0x20, .commission),
    (0x21, .eraseStore), (0x22, .hold), (0x23, .proceed)]

/-- A head link that is LOCKED in a polarity, in WAIT or HUNT, with its transmitter idle. -/
def LinkRec.listening (k : LinkRec) (polarity : Polarity) (rx : Rx) : Prop :=
  k.mode = .locked polarity rx ∧ (rx = .wait ∨ rx = .hunt) ∧ k.transmitter = none

/-- A LOCKED link's record after a bad frame that does not lose the link (R57). -/
def LinkRec.afterBadFrame (k : LinkRec) (polarity : Polarity) (counts : LinkCounts) : LinkRec :=
  { k with mode := .locked polarity .hunt, run := k.run + 1, counts := counts }

/-- What a head's telegram of a LOCKED link in WAIT or HUNT looks like on the wire (R50, R55). -/
def onTheWire (polarity : Polarity) (station kind : Octet) (body : List Octet) : List Octet :=
  (telegram station kind body).map polarity.apply

/-- The head takes telegrams of `l` at the station, and its link is LOCKED (R56). -/
structure State.hears (s : State) (l : LinkId) (h : HeadId) (station : Octet) (polarity : Polarity)
    (rx : Rx) : Prop where
  settled : s.settled
  link    : (s.link l).listening polarity rx
  mapped  : s.activeTable.stationMap l station = some h

/-- The part with the copy of a telegram offered where the head's mirror flag is set: the octets from the
address octet to the last CRC octet, in DIRECT sense (R60). -/
def Part.copied (p : Part) (l : LinkId) (h : HeadId) (station : Octet) (body : List Octet) : Part :=
  if (p.headCfg h).mirror then p.offerMirror l (framed station 0x01 body) else p

/-- The body that R165 lays out for the fields of a telegram. -/
def HeadTelegram.body (t : HeadTelegram) : List Octet :=
  [t.sequence ++ BitVec.ofBool t.restart ++ BitVec.ofBool t.health.isSome ++
      BitVec.ofBool t.echo.isSome ++ 0#1,
    t.changeCount,
    (codePhase t.phase).setWidth 2 ++ 0#3 ++ BitVec.ofNat 3 t.changes.length] ++
  t.changes.map codePhase ++
  (match t.health with
    | none => []
    | some b =>
      [b.levelA ++ b.levelB, 0#6 ++ BitVec.ofBool b.supplyAlarm ++ BitVec.ofBool b.temperatureAlarm,
        b.identity.extractLsb' 16 8, b.identity.extractLsb' 8 8, b.identity.extractLsb' 0 8]) ++
  (match t.echo with
    | none => []
    | some e => [BitVec.ofBool (e.code == .healthRequest) ++ 0#3 ++ e.tag])

/-- The part with a head's silence timer restarted with the timeout in force (R25). -/
def Part.heard (p : Part) (h : HeadId) : Part :=
  p.setHead h { p.head h with silence := .running (p.headCfg h).silenceTimeout.toNat }

/-- The part with notices offered, in order. -/
def Part.notified (p : Part) (notices : List Notice) : Part :=
  { p with report := notices.foldl ReportUnit.offer p.report }

/-- A health block has a level below the level floor of the head's record (R34). -/
def Part.levelLow (p : Part) (h : HeadId) (b : Health) : Prop :=
  b.levelA.toNat < (p.headCfg h).levelFloor.toNat ∨ b.levelB.toNat < (p.headCfg h).levelFloor.toNat

/-- The notice that a health block's temperature alarm gives against the block it replaces (R35). -/
def HeadRec.temperatureNotices (r : HeadRec) (h : HeadId) (b : Health) : List Notice :=
  if b.temperatureAlarm = (match r.health with
    | some old => old.temperatureAlarm
    | none => false) then []
  else [.headTemperature h b.temperatureAlarm]

/-- The notices of a health block that fails no head by its identity (R35, R36). -/
def Part.healthNotices (p : Part) (h : HeadId) (b : Health) : List Notice :=
  (p.head h).temperatureNotices h b ++
    (if (p.headCfg h).expected = 0 ∧ (p.head h).learned ≠ some b.identity then
      [.identityLearned h b.identity]
    else [])

/-- A head's record with a health block stored, and its identity learned where the head is in learning
(R34, R36). -/
def Part.withHealth (p : Part) (h : HeadId) (b : Health) : HeadRec :=
  { p.head h with
    health := some b
    learned := if (p.headCfg h).expected = 0 then some b.identity else (p.head h).learned }

/-- `t` is the part `p` after the loss of a link that was LOCKED in a polarity (R57, R44, R42, R16, R104,
R67), with the bad-frame counters as given. -/
structure Part.lostTo (p t : Part) (l : LinkId) (polarity : Polarity) (counts : LinkCounts) :
    Prop where
  link : t.link l =
    { p.link l with
      mode := .search none, run := 0, counts := counts, latch := true, queue := []
      timer := if (p.link l).queue = [] then (p.link l).timer else .stopped }
  others : ∀ m, m ≠ l → t.link m = p.link m
  heads : ∀ h, t.head h =
    if h ∈ p.activeTable.headsOfLink l ∧
        ((p.head h).state = .acquiring ∨ (p.head h).state = .inService) then
      { p.head h with
        state := .failed, lastCause := .linkLost, silence := .stopped, run := 0
        identityConfirmed := false }
    else p.head h
  decoders : ∀ h, t.decoder h =
    if h ∈ p.activeTable.headsOfLink l ∧ (p.head h).state = .inService then
      { p.decoder h with phase := .free, side := .none, rock := 0 }
    else p.decoder h
  sections : ∀ i, t.sec i =
    match (p.activeTable.headsOfLink l).find? fun h =>
        decide ((p.head h).state = .inService) && (p.sectionCfg i).names h with
    | some h =>
      if (p.sectionCfg i).present = true ∧ (p.sec i).state ≠ .disturbed then
        { p.sec i with
          state := .disturbed, count := 0, confirm := .stopped, sweep := false
          cause := .headFailed h .linkLost, number := (p.sec i).number + 1
          latch := (p.sec i).latch || decide ((p.sec i).state = .clear) }
      else p.sec i
    | none => p.sec i
  report : t.report =
    { ([Notice.linkState l .search polarity] ++
        ((p.activeTable.headsOfLink l).filter fun h =>
          decide ((p.head h).state = .acquiring) || decide ((p.head h).state = .inService)).map
            (fun h => Notice.headState h .failed .linkLost) ++
        (p.link l).queue.map fun c =>
          Notice.relayResult l c.target c.station c.code c.tag .cancelled).foldl
        ReportUnit.offer p.report with
      queue := p.report.queue ++
        ((p.activeTable.headsOfLink l).filter fun h => decide ((p.head h).state = .inService)).flatMap
          fun h => (List.finRange 24).filter fun i =>
            (p.sectionCfg i).present && decide ((p.sec i).state ≠ .disturbed) &&
              decide (i ∉ p.report.queue) &&
              decide (((p.activeTable.headsOfLink l).find? fun g =>
                decide ((p.head g).state = .inService) && (p.sectionCfg i).names g) = some h) }
  rest : t =
    { p with
      links := t.links, heads := t.heads, decoders := t.decoders, sections := t.sections
      report := t.report }

/-- `found` is what a check of numbered records answers that takes them in ascending number and ends at the
first that fails it (R76). -/
def findsFirst {n : Nat} (code : CheckCode) (kind : RecordKind) (fails : Fin n → Prop)
    (found : Option CheckFailure) : Prop :=
  ((∀ i, ¬ fails i) → found = none) ∧
  ∀ i, fails i → (∀ j, j < i → ¬ fails j) →
    found = some { code := code, kind := kind, number := i.val }

/-- The fields of a global record lie in their ranges (R77). -/
def GlobalRecord.fieldsInRange (g : GlobalRecord) : Prop :=
  (100 ≤ g.reportCycle.toNat ∧ g.reportCycle.toNat ≤ 10000 ∧ g.reportCycle.toNat % 100 = 0) ∧
    (100 ≤ g.holdLimit.toNat ∧ g.holdLimit.toNat ≤ 5000 ∧ g.holdLimit.toNat % 100 = 0) ∧
    (g.startMode = 1 ∨ g.startMode = 2) ∧
    ∀ l : LinkId, 1 ≤ g.threshold[l].toNat ∧ g.threshold[l].toNat ≤ 15

/-- The fields of a head record lie in their ranges (R77). -/
def HeadRecord.fieldsInRange (r : HeadRecord) : Prop :=
  r.link.toNat ≤ 3 ∧ (1 ≤ r.station.toNat ∧ r.station.toNat ≤ 8) ∧
    (20 ≤ r.silenceTimeout.toNat ∧ r.silenceTimeout.toNat ≤ 1000 ∧
      r.silenceTimeout.toNat % 10 = 0) ∧
    (2 ≤ r.acquireCount.toNat ∧ r.acquireCount.toNat ≤ 16) ∧
    (1 ≤ r.rockLimit.toNat ∧ r.rockLimit.toNat ≤ 15) ∧ r.levelFloor.toNat ≤ 15

/-- The fields of a section record lie in their ranges (R77). -/
def SectionRecord.fieldsInRange (r : SectionRecord) : Prop :=
  (∀ e ∈ r.boundary, e.head.toNat ≤ 31 ∧ (e.inward = 1 ∨ e.inward = 2)) ∧
    (16 ≤ r.countLimit.toNat ∧ r.countLimit.toNat ≤ 4095) ∧
    (r.confirmTime.toNat ≤ 5000 ∧ r.confirmTime.toNat % 50 = 0)

/-- A link's record after a telegram of it that was taken (R51, R56). -/
def LinkRec.afterTaken (k : LinkRec) (polarity : Polarity) : LinkRec :=
  { k with mode := .locked polarity .wait, run := 0 }

/-- The four conditions under which a link's relay telegram starts (R61). -/
def LinkRec.mayTransmit (k : LinkRec) : Prop :=
  k.transmitter = none ∧
    (∃ polarity rx, k.mode = .locked polarity rx ∧ ∀ octets, rx ≠ .frame octets) ∧
    ∃ c rest, k.queue = c :: rest ∧ c.stage = .waiting

/-- The expiry commands of the timers whose interval has ended: silence, confirm and relay timers in
ascending number, then the hold-limit, report-cycle and store timer (log 4). -/
def Part.expiries (p : Part) : List Instr :=
  ((List.finRange 32).filter fun h => decide ((p.head h).silence = .running 0)).map .silenceExpiry ++
    ((List.finRange 24).filter fun i => decide ((p.sec i).confirm = .running 0)).map .confirmExpiry ++
    ((List.finRange 4).filter fun l => decide ((p.link l).timer = .running 0)).map .relayTimerExpiry ++
    (if p.report.holdTimer = .running 0 then [.holdLimitExpiry] else []) ++
    (if p.report.cycleTimer = .running 0 then [.reportCycleExpiry] else []) ++
    (if p.image.timer = .running 0 then [.storeTimerExpiry] else [])

/-- The commands, run one after the other, each answer a next state, and the last is `t`. -/
def State.runsTo (s : State) (commands : List Instr) (t : State) : Prop :=
  match commands with
  | [] => t = s
  | c :: rest => ∃ u, exec c s = .next u ∧ u.runsTo rest t

end Sys2Proof.Machine

open Sys2Proof Sys2Proof.Machine

/-! ## Steps -/

/-- With a command at the front of the queue, a step is that command's meaning on the state with the
queue's rest. -/
def Obligations.StepRunsFrontCommand : Prop :=
  ∀ (s : State) (c : Instr) (rest : List Instr), s.pending = c :: rest →
    step s = exec c { s with pending := rest }

/-- DESIGN CHOICE (log 3, 4, 5), not a rule of the spec: with an empty queue a step starts the relay telegram
of the lowest-numbered link whose four conditions hold (R61), as RELAY_TRANSMISSION_START does. Where none
may start it lets one millisecond pass for every running timer, and then each timer whose interval has ended
within it has its expiry (R1), as its expiry command does, in the order of log 4; where none has ended,
nothing else changes. -/
def Obligations.EmptyQueueLetsAMillisecondPass : Prop :=
  ∀ s : State, s.pending = [] → s.awake →
    (∀ l, (s.link l).mayTransmit → (∀ k, k < l → ¬ (s.link k).mayTransmit) →
      step s = exec (.relayTransmissionStart l) s) ∧
    ((∀ l, ¬ (s.link l).mayTransmit) → s.transmissionDue = false →
      ∃ counted t : State, step s = .next t ∧ counted.runsTo counted.toPart.expiries t ∧
        (∀ h, counted.head h = { s.head h with silence := (s.head h).silence.countDown }) ∧
        (∀ i, counted.sec i = { s.sec i with confirm := (s.sec i).confirm.countDown }) ∧
        (∀ l, counted.link l = { s.link l with timer := (s.link l).timer.countDown }) ∧
        counted = { s with
          heads := counted.heads
          sections := counted.sections
          links := counted.links
          report := { s.report with
            holdTimer := s.report.holdTimer.countDown
            cycleTimer := s.report.cycleTimer.countDown }
          image := { s.image with timer := s.image.timer.countDown } })

/-! ## Full reset, start-up and pins -/

/-- R163, with the reset values of R14, R23, R54, R93, R126, R146, R155 and R158: a full reset puts every
block at its reset values, keeps the image, and holds the part by the pin that caused it. That the image
state, which the start-up sequence sets at the end, stands as it was until then is log 22's (DESIGN CHOICE,
the model's): no rule gives it a value in between. -/
def Obligations.FullResetTakesResetValues : Prop :=
  ∀ (s : State) (cause : ResetCause),
    exec (.fullReset cause) s = .next
      { pins := match cause with
          | .powerOn => { s.pins with powerOnHold := true }
          | .resetPin => { s.pins with resetHold := true }
          | .strapZero => { s.pins with address := 0 }
        links := Vector.replicate 4
          { mode := .off, run := 0
            counts := { syncMiss := 0, length := 0, charTimeout := 0, crc := 0, format := 0 }
            strays := 0, repeats := 0, mirrorsDropped := 0, latch := false, transmitter := none
            queue := [], tag := 0, timer := .stopped }
        heads := Vector.replicate 32
          { state := .absent, baseline := none, run := 0, identityConfirmed := false
            silence := .stopped, health := none, learned := none, lastCause := .none }
        decoders := Vector.replicate 32
          { phase := .free, side := .none, rock := 0, tallyAB := 0, tallyBA := 0 }
        evaluator := .unconfigured
        sections := Vector.replicate 24
          { state := .absent, count := 0, number := 0, cause := .none, sweep := false, tally := 0
            latch := false, confirm := .stopped }
        tables :=
          { active := none, staging := Table.blank, stagingState := .editing, lastCheck := .none }
        count :=
          { rx := .wait, replies := [], dropped := 0
            counts := { syncMiss := 0, length := 0, charTimeout := 0, crc := 0 } }
        report :=
          { queue := [], notices := [], overrun := false, overrunAgain := false, holdExpired := false
            holdExpiredAgain := false, mirrors := [], held := false, holdTimer := .stopped
            cycleTimer := .stopped, transmitter := none }
        image :=
          { image := s.image.image, state := s.image.state, op := .none, timer := .stopped }
        pending := s.pending }

/-- R14, R23 and R146: after a full reset, and after the start-up sequence that ends it, every head
record, every decoder record and the count line controller have their reset values, and every section
that exists is DISTURBED with START_UP. The count line takes no octet while the part is held, and takes
octets from the end of the start-up sequence, whatever image it found. -/
def Obligations.ResetOfHeadsDecodersAndCountLine : Prop :=
  ∀ (s t : State),
    (∃ cause, exec (.fullReset cause) s = .next t) ∨
      (s.toPart.inReset = true ∧ t.awake ∧ ∃ event, exec (.fullResetEnd event) s = .next t) →
    (∀ h, t.head h =
      { state := .absent, baseline := none, run := 0, identityConfirmed := false
        silence := .stopped, health := none, learned := none, lastCause := .none }) ∧
    (∀ h, t.decoder h =
      { phase := .free, side := .none, rock := 0, tallyAB := 0, tallyBA := 0 }) ∧
    t.count =
      { rx := .wait, replies := [], dropped := 0
        counts := { syncMiss := 0, length := 0, charTimeout := 0, crc := 0 } } ∧
    (∀ i, (t.sectionCfg i).present = true →
      (t.sec i).state = .disturbed ∧ (t.sec i).cause = .startUp) ∧
    (t.toPart.inReset = true → ∀ octet, exec (.syncMiss .countLine octet) t = .next t) ∧
    (t.awake → exec (.syncMiss .countLine 0xA7) t =
      .next (State.afterEvent { t with count := { t.count with rx := .frame [] } }))

/-- R163 step 2, with R126: the end of a full reset that finds a VALID or VALID_COMMISSIONED image loads
it. -/
def Obligations.StartUpLoadsTheImage : Prop :=
  ∀ (s : State) (event : ResetEnd) (b : ImageBody), s.toPart.inReset = true →
    (s.toPart.setPins (s.pins.endReset event)).inReset = false →
    s.image.image.body = b → tableCrc b.table = b.crc →
    (s.image.image.marker = .valid ∨ s.image.image.marker = .commissioned) →
    ∃ t : State, exec (.fullResetEnd event) s = .next t.afterEvent ∧
      t.pins = s.pins.endReset event ∧ t.pending = s.pending ∧
      t.image =
        { image := s.image.image
          state := if s.image.image.marker = .valid then .valid else .validCommissioned
          op := .none, timer := .stopped } ∧
      t.tables =
        { active := some { table := b.table, crc := b.crc }, staging := b.table
          stagingState := .checked b.crc, lastCheck := .pass b.crc } ∧
      (b.table.global.startMode = 1 → t.evaluator = .running) ∧
      (b.table.global.startMode = 2 → t.evaluator = .halted) ∧
      (∀ i, t.sec i =
        if (b.table.sectionCfg i).present then
          { SectionRec.reset with state := .disturbed, number := 1, cause := .startUp }
        else SectionRec.reset) ∧
      (∀ l, t.link l =
        if b.table.global.enabled[l] then { LinkRec.reset with mode := .search none }
        else LinkRec.reset) ∧
      t.report =
        { ReportUnit.reset with
          queue := b.table.presentSections
          cycleTimer := .running b.table.global.reportCycle.toNat } ∧
      t.heads = Vector.replicate 32 HeadRec.reset ∧
      t.decoders = Vector.replicate 32 DecoderRec.reset ∧ t.count = CountLine.reset

/-- R158 and R163 step 3: the end of a full reset that finds the image EMPTY or INVALID loads no table
and leaves every block at its reset values. -/
def Obligations.StartUpFindsNoTable : Prop :=
  ∀ (s : State) (event : ResetEnd) (state : ImageState), s.toPart.inReset = true →
    (s.toPart.setPins (s.pins.endReset event)).inReset = false →
    (s.image.image.marker = .blank ∧ state = .empty ∨
      s.image.image.marker = .writing ∧ state = .invalid ∨
      (s.image.image.marker = .valid ∨ s.image.image.marker = .commissioned) ∧
        tableCrc s.image.image.body.table ≠ s.image.image.body.crc ∧ state = .invalid) →
    exec (.fullResetEnd event) s = .next
      { toPart := Part.resetValues (s.pins.endReset event) s.image.image state
        pending := s.pending }

/-- R163 with log 15 (DEDUCED, the model's reading): while the part is held in full reset, the end of one
hold among several only changes the pins, a rate strap change only its pin, and every other command but
those that cause or end the reset changes nothing. A part that is not in reset has none to end. -/
def Obligations.HeldInResetNothingHappens : Prop :=
  (∀ (s : State) (c : Instr), s.toPart.inReset = true → (∀ cause, c ≠ .fullReset cause) →
    (∀ event, c ≠ .fullResetEnd event) → (∀ address, c ≠ .addressStrapChange address) →
    (∀ rate, c ≠ .rateStrapChange rate) → exec c s = .next s) ∧
  (∀ (s : State) (rate : Rate), s.toPart.inReset = true →
    exec (.rateStrapChange rate) s = .next { s with pins := { s.pins with rate := rate } }) ∧
  (∀ (s : State) (event : ResetEnd), s.toPart.inReset = true →
    (s.toPart.setPins (s.pins.endReset event)).inReset = true →
    exec (.fullResetEnd event) s = .next { s with pins := s.pins.endReset event }) ∧
  (∀ (s : State) (event : ResetEnd), s.awake → exec (.fullResetEnd event) s = .next s.afterEvent)

/-- R142: a strap change from one part address to another changes the address that the next telegram is
judged by and nothing else; R163: a strap of 0 is a full reset, and a return from 0 is its end. -/
def Obligations.AddressStrapChanges : Prop :=
  ∀ (s : State) (address : BitVec 4),
    (address ≠ 0 → s.awake →
      exec (.addressStrapChange address) s =
        .next (State.afterEvent { s with pins := { s.pins with address := address } })) ∧
    (address = 0 → exec (.addressStrapChange address) s = exec (.fullReset .strapZero) s) ∧
    (address ≠ 0 → s.toPart.inReset = true →
      exec (.addressStrapChange address) s = exec (.fullResetEnd (.strapReturned address)) s)

/-- R142: a change of the rate strap ends each telegram in FRAME as a CHAR_TIMEOUT bad frame and drops
each candidate of a link in SEARCH, and touches no other receiver. Said first of every case, a link at its
threshold lost as `HeadLinkIsLost` says; and then record by record where no link reaches its threshold. Two
things in it are log 10's (DESIGN CHOICE, the model's), not R142's: the order of the lines, the links in
ascending number and then the count line; and that a strap which keeps its value does nothing. -/
def Obligations.RateStrapChanges : Prop :=
  (∀ (s : State), exec (.rateStrapChange s.pins.rate) s = .next s.afterEvent) ∧
  (∀ (s : State) (rate : Rate) (ended : Part), s.awake → s.pins.rate ≠ rate →
    ended = (List.finRange 4).foldl (fun (p : Part) l =>
      match (p.link l).mode with
      | .locked _ (.frame _) => p.badFrame l .charTimeout .hunt
      | .search _ => p.setLink l { p.link l with mode := .search none }
      | _ => p) s.toPart →
    exec (.rateStrapChange rate) s = .next (State.afterEvent { s with
      toPart := { ended with
        pins := { s.pins with rate := rate }
        count :=
          match s.count.rx with
          | .frame _ =>
            { s.count with
              rx := .hunt
              counts := { s.count.counts with
                charTimeout := min (s.count.counts.charTimeout + 1) 65535 } }
          | _ => s.count } })) ∧
  (∀ (s : State) (rate : Rate), s.awake → s.pins.rate ≠ rate →
    (∀ l pol octets, (s.link l).mode = .locked pol (.frame octets) →
      (s.link l).run + 1 < s.threshold l) →
    ∃ t : State, exec (.rateStrapChange rate) s = .next t.afterEvent ∧
      (∀ l, t.link l =
        match (s.link l).mode with
        | .locked pol (.frame _) =>
          (s.link l).afterBadFrame pol
            { (s.link l).counts with
              charTimeout := min ((s.link l).counts.charTimeout + 1) 65535 }
        | .search _ => { s.link l with mode := .search none }
        | _ => s.link l) ∧
      t = { s with
        pins := { s.pins with rate := rate }
        links := t.links
        count :=
          match s.count.rx with
          | .frame _ =>
            { s.count with
              rx := .hunt
              counts := { s.count.counts with
                charTimeout := min (s.count.counts.charTimeout + 1) 65535 } }
          | _ => s.count })

/-! ## The receivers -/

/-- R51, R52 and R141: the count line's receiver, its three conditions and its four bad frames, none of
which changes anything but the controller's own record. -/
def Obligations.CountLineReceives : Prop :=
  ∀ (s : State), s.settled →
    (∀ octet : Octet, octet ≠ 0xA7 → s.count.rx = .wait →
      exec (.syncMiss .countLine octet) s = .next (State.afterEvent { s with
        count := { s.count with
          rx := .hunt
          counts := { s.count.counts with syncMiss := min (s.count.counts.syncMiss + 1) 65535 } } })) ∧
    (∀ octet : Octet, octet ≠ 0xA7 → s.count.rx = .hunt →
      exec (.syncMiss .countLine octet) s = .next s.afterEvent) ∧
    (s.count.rx = .wait ∨ s.count.rx = .hunt →
      exec (.syncMiss .countLine 0xA7) s =
        .next (State.afterEvent { s with count := { s.count with rx := .frame [] } }) ∧
      (∀ address length : Octet, length.toNat < 4 ∨ 37 < length.toNat →
        exec (.lengthBadFrame .countLine [0xA7, address, length]) s = .next (State.afterEvent { s with
          count := { s.count with
            rx := .hunt
            counts := { s.count.counts with length := min (s.count.counts.length + 1) 65535 } } })) ∧
      (∀ octets, incomplete octets →
        exec (.charTimeout .countLine (0xA7 :: octets)) s = .next (State.afterEvent { s with
          count := { s.count with
            rx := .hunt
            counts := { s.count.counts with
              charTimeout := min (s.count.counts.charTimeout + 1) 65535 } } })) ∧
      (∀ octets, complete octets → passesCrc octets = false →
        exec (.crcBadFrame .countLine (0xA7 :: octets)) s = .next (State.afterEvent { s with
          count := { s.count with
            rx := .hunt
            counts := { s.count.counts with crc := min (s.count.counts.crc + 1) 65535 } } })))

/-- R51, R52 and R57 on a LOCKED head link, in either polarity, below its threshold: each of the four kinds
of bad frame that leave the receiver in HUNT, SYNC_MISS, LENGTH, CHAR_TIMEOUT and CRC, raises its own
counter and the run, and does nothing else. (The fifth kind, FORMAT, leaves it in WAIT:
`MalformedStrayAndRepeatedTelegrams`.) An octet that is not SYNC in HUNT is discarded and not counted. -/
def Obligations.HeadLinkCountsBadFrames : Prop :=
  ∀ (s : State) (l : LinkId) (polarity : Polarity) (rx : Rx), s.settled →
    (s.link l).listening polarity rx → (s.link l).run + 1 < s.threshold l →
    (∀ octet, polarity.apply octet ≠ 0xA7 → rx = .wait →
      exec (.syncMiss (.headLink l) octet) s = .next (State.afterEvent { s with
        toPart := s.toPart.setLink l ((s.link l).afterBadFrame polarity
          { (s.link l).counts with syncMiss := min ((s.link l).counts.syncMiss + 1) 65535 }) })) ∧
    (∀ octet, polarity.apply octet ≠ 0xA7 → rx = .hunt →
      exec (.syncMiss (.headLink l) octet) s = .next s.afterEvent) ∧
    (∀ station length : Octet, length.toNat < 4 ∨ 37 < length.toNat →
      exec (.lengthBadFrame (.headLink l) ([0xA7, station, length].map polarity.apply)) s =
        .next (State.afterEvent { s with
          toPart := s.toPart.setLink l ((s.link l).afterBadFrame polarity
            { (s.link l).counts with length := min ((s.link l).counts.length + 1) 65535 }) })) ∧
    (∀ octets, incomplete octets →
      exec (.charTimeout (.headLink l) ((0xA7 :: octets).map polarity.apply)) s =
        .next (State.afterEvent { s with
        toPart := s.toPart.setLink l ((s.link l).afterBadFrame polarity
          { (s.link l).counts with
            charTimeout := min ((s.link l).counts.charTimeout + 1) 65535 }) })) ∧
    (∀ octets, complete octets → passesCrc octets = false →
      exec (.crcBadFrame (.headLink l) ((0xA7 :: octets).map polarity.apply)) s =
        .next (State.afterEvent { s with
        toPart := s.toPart.setLink l ((s.link l).afterBadFrame polarity
          { (s.link l).counts with crc := min ((s.link l).counts.crc + 1) 65535 }) }))

/-- R57, with R44, R42, R16, R104, R67 and R51 to R53: every kind of bad frame that raises the run of a
LOCKED link to its threshold loses the link, with the bad frame counted in its own counter before. The link
goes to SEARCH with run 0, its latch set and its relay queue empty; each present head of the link that was
ACQUIRING or IN_SERVICE fails with LINK_LOST; each present section not yet DISTURBED that names one of those
that was IN_SERVICE is disturbed by the lowest-numbered of them and marked, head by head and then in
ascending section number; and LINK_STATE, a HEAD_STATE for each failed head in ascending number, and a
RELAY_RESULT CANCELLED for each command in queue order are offered. The commands that bring each kind of bad
frame are named after that: SYNC_MISS in WAIT, LENGTH, CHAR_TIMEOUT, CRC, FORMAT, and a quiet interval in
FRAME (a rate change is `RateStrapChanges`). That a quiet interval in FRAME, at the threshold or below it,
ends the telegram with the receiver in WAIT is log 9's (DEDUCED, the model's reading). -/
def Obligations.HeadLinkIsLost : Prop :=
  (∀ (p : Part) (l : LinkId) (polarity : Polarity) (rx after : Rx) (kind : BadFrame)
    (counts : LinkCounts), (p.link l).mode = .locked polarity rx →
    p.threshold l ≤ (p.link l).run + 1 →
    counts = (match kind with
      | .syncMiss => { (p.link l).counts with
          syncMiss := min ((p.link l).counts.syncMiss + 1) 65535 }
      | .length => { (p.link l).counts with length := min ((p.link l).counts.length + 1) 65535 }
      | .charTimeout => { (p.link l).counts with
          charTimeout := min ((p.link l).counts.charTimeout + 1) 65535 }
      | .crc => { (p.link l).counts with crc := min ((p.link l).counts.crc + 1) 65535 }
      | .format => { (p.link l).counts with format := min ((p.link l).counts.format + 1) 65535 }) →
    p.lostTo (p.badFrame l kind after) l polarity counts) ∧
  (∀ (s : State) (l : LinkId) (polarity : Polarity) (rx : Rx), s.settled →
    (s.link l).listening polarity rx →
    (∀ octet, polarity.apply octet ≠ 0xA7 → rx = .wait →
      exec (.syncMiss (.headLink l) octet) s = .next (State.afterEvent { s with
        toPart := s.toPart.badFrame l .syncMiss .hunt })) ∧
    (∀ station length : Octet, length.toNat < 4 ∨ 37 < length.toNat →
      exec (.lengthBadFrame (.headLink l) ([0xA7, station, length].map polarity.apply)) s =
        .next (State.afterEvent { s with toPart := s.toPart.badFrame l .length .hunt })) ∧
    (∀ octets, incomplete octets →
      exec (.charTimeout (.headLink l) ((0xA7 :: octets).map polarity.apply)) s =
        .next (State.afterEvent { s with toPart := s.toPart.badFrame l .charTimeout .hunt })) ∧
    (∀ octets, complete octets → passesCrc octets = false →
      exec (.crcBadFrame (.headLink l) ((0xA7 :: octets).map polarity.apply)) s =
        .next (State.afterEvent { s with toPart := s.toPart.badFrame l .crc .hunt })) ∧
    (∀ (station kind : Octet) (body : List Octet), 1 ≤ body.length → body.length ≤ 34 →
      parseHeadStatus station kind body = none →
      exec (.headStatusTelegram l (onTheWire polarity station kind body)) s =
        .next (State.afterEvent { s with toPart := s.toPart.badFrame l .format .wait }))) ∧
  (∀ (s : State) (l : LinkId) (polarity : Polarity) (octets : List Octet), s.awake →
    (s.link l).mode = .locked polarity (.frame octets) → (s.link l).transmitter = none →
    exec (.quietInterval (.headLink l)) s =
      .next (State.afterEvent { s with toPart := s.toPart.badFrame l .charTimeout .wait }))

/-- R51 and R52: a gap of more than 4 octet times takes HUNT to WAIT and leaves WAIT as it is; in FRAME the
character wait has expired, the bad frame CHAR_TIMEOUT is counted, and the receiver is in WAIT thereafter
(log 9: the end in WAIT is DEDUCED, the model's reading). R55: in SEARCH it drops the candidate. It touches
nothing else. R54 and R61: on a link that is OFF, and on one on which the part transmits, no octet, gap or
telegram is received, and none changes anything. -/
def Obligations.QuietIntervalReturnsToWait : Prop :=
  (∀ s : State, s.awake →
    exec (.quietInterval .countLine) s = .next (State.afterEvent { s with
      count := { s.count with
        rx := .wait
        counts :=
          match s.count.rx with
          | .frame _ =>
            { s.count.counts with charTimeout := min (s.count.counts.charTimeout + 1) 65535 }
          | _ => s.count.counts } })) ∧
  (∀ (s : State) (l : LinkId) (polarity : Polarity) (rx : Rx), s.awake →
    (s.link l).listening polarity rx →
    exec (.quietInterval (.headLink l)) s = .next (State.afterEvent { s with
      toPart := s.toPart.setLink l { s.link l with mode := .locked polarity .wait } })) ∧
  (∀ (s : State) (l : LinkId) (polarity : Polarity) (octets : List Octet), s.awake →
    (s.link l).mode = .locked polarity (.frame octets) → (s.link l).transmitter = none →
    (s.link l).run + 1 < s.threshold l →
    exec (.quietInterval (.headLink l)) s = .next (State.afterEvent { s with
      toPart := s.toPart.setLink l { s.link l with
        mode := .locked polarity .wait
        run := (s.link l).run + 1
        counts := { (s.link l).counts with
          charTimeout := min ((s.link l).counts.charTimeout + 1) 65535 } } })) ∧
  (∀ (s : State) (l : LinkId) (candidate : Option (Polarity × List Octet)), s.awake →
    (s.link l).mode = .search candidate → (s.link l).transmitter = none →
    exec (.quietInterval (.headLink l)) s = .next (State.afterEvent { s with
      toPart := s.toPart.setLink l { s.link l with mode := .search none } })) ∧
  (∀ (s : State) (l : LinkId), s.settled →
    (s.link l).mode = .off ∨ (s.link l).transmitter ≠ none →
    exec (.quietInterval (.headLink l)) s = .next s ∧
    (∀ octet, exec (.syncMiss (.headLink l) octet) s = .next s) ∧
    ∀ octets, exec (.lengthBadFrame (.headLink l) octets) s = .next s ∧
      exec (.charTimeout (.headLink l) octets) s = .next s ∧
      exec (.crcBadFrame (.headLink l) octets) s = .next s ∧
      exec (.headStatusTelegram l octets) s = .next s)

/-- R55: a link in SEARCH. An octet that is a SYNC in neither polarity is discarded; a SYNC in either
begins a candidate; a candidate ended by a bad length, a gap or its CRC is dropped and nothing is counted
(a SYNC of the other polarity among its octets begins none: log 19, DEDUCED, the model's reading); and the
first that passes CRC locks the link in its polarity, sets the latch, offers LINK_STATE, and is then judged
as a telegram of a link LOCKED in that polarity: FORMAT (R53; the link's first bad frame, or its loss,
`HeadLinkIsLost`), a stray, or a mapped head's, which goes to the supervisor (R56, R60), all as one event. -/
def Obligations.SearchLocksOnTheFirstGoodTelegram : Prop :=
  ∀ (s : State) (l : LinkId), s.settled → (s.link l).mode = .search none →
    (s.link l).transmitter = none →
    (∀ octet : Octet, octet ≠ 0xA7 → octet ≠ 0x58 →
      exec (.syncMiss (.headLink l) octet) s = .next s.afterEvent) ∧
    (∀ polarity : Polarity,
      exec (.syncMiss (.headLink l) (polarity.apply 0xA7)) s = .next (State.afterEvent { s with
        toPart := s.toPart.setLink l { s.link l with mode := .search (some (polarity, [])) } }) ∧
      (∀ station length : Octet, length.toNat < 4 ∨ 37 < length.toNat →
        exec (.lengthBadFrame (.headLink l) ([0xA7, station, length].map polarity.apply)) s =
          .next s.afterEvent) ∧
      (∀ octets, incomplete octets →
        exec (.charTimeout (.headLink l) ((0xA7 :: octets).map polarity.apply)) s =
          .next s.afterEvent) ∧
      (∀ octets, complete octets → passesCrc octets = false →
        exec (.crcBadFrame (.headLink l) ((0xA7 :: octets).map polarity.apply)) s =
          .next s.afterEvent) ∧
      (∀ (station kind : Octet) (body : List Octet) (locked : Part), 1 ≤ body.length →
        body.length ≤ 34 →
        locked = (s.toPart.setLink l { s.link l with
          mode := .locked polarity .wait, latch := true }).setReport
            (s.report.offer (.linkState l .locked polarity)) →
        (parseHeadStatus station kind body = none →
          exec (.headStatusTelegram l (onTheWire polarity station kind body)) s =
            .next (State.afterEvent { s with toPart := locked.badFrame l .format .wait })) ∧
        (∀ t, parseHeadStatus station kind body = some t →
          (s.activeTable.stationMap l station = none →
            exec (.headStatusTelegram l (onTheWire polarity station kind body)) s =
              .next (State.afterEvent { s with
                toPart := (s.toPart.setLink l { s.link l with
                  mode := .locked polarity .wait, latch := true
                  strays := min ((s.link l).strays + 1) 65535 }).setReport
                    (s.report.offer (.linkState l .locked polarity)) })) ∧
          (∀ h taken, s.activeTable.stationMap l station = some h →
            taken = locked.takeTelegram l h t →
            exec (.headStatusTelegram l (onTheWire polarity station kind body)) s =
              .next (State.afterEvent { s with
                toPart := (taken.1.setLink l
                  (if taken.2 then
                    { taken.1.link l with repeats := min ((taken.1.link l).repeats + 1) 65535 }
                  else { taken.1.link l with run := 0 })).copied l h station body })))))

/-! ## Head status telegrams -/

/-- R53 and R165: a body is a head status telegram of station 1 to 8 exactly as R165 lays its fields out;
and it is FORMAT by a kind other than 01, a station of 0 or above 8, a body too short for octet 3, a spare
bit set in octet 1, octet 3, a change entry, the health block or the echo, a list count of 7, a length other
than the one declared, or a last entry that differs from the present phase. R56 and R57: a FORMAT bad frame
(here below the threshold) leaves the receiver in WAIT, and a telegram of a station with no present head is
a stray: neither touches anything but the link's record. R28, R32 and R60: a repeat restarts the silence
timer of an ACQUIRING or IN_SERVICE head (that of a FAILED head stays as it is), raises the link's repeat
count, leaves the run, is offered for mirroring where the head's flag is set, and goes no further. -/
def Obligations.MalformedStrayAndRepeatedTelegrams : Prop :=
  (∀ t : HeadTelegram, 1 ≤ t.station.toNat → t.station.toNat ≤ 8 → t.changes.length ≤ 6 →
    (∀ last, t.changes.getLast? = some last → last = t.phase) →
    parseHeadStatus t.station 0x01 t.body = some t) ∧
  (∀ (station kind : Octet) (body : List Octet),
    kind ≠ 0x01 ∨ station = 0 ∨ 8 < station.toNat ∨ body.length < 3 →
    parseHeadStatus station kind body = none) ∧
  (∀ (station kind flags count phases : Octet) (rest : List Octet) (n h e : Nat),
    n = (phases.extractLsb' 0 3).toNat → h = (if flags.getLsbD 2 then 1 else 0) →
    e = (if flags.getLsbD 1 then 1 else 0) →
    flags.getLsbD 0 = true ∨ phases.extractLsb' 3 3 ≠ 0 ∨ n = 7 ∨ rest.length ≠ n + 5 * h + e ∨
      (∃ k : Nat, ∃ entry, k < n ∧ rest[k]? = some entry ∧ entry.extractLsb' 2 6 ≠ 0) ∨
      (∃ entry, 1 ≤ n ∧ rest[n - 1]? = some entry ∧
        entry.extractLsb' 0 2 ≠ phases.extractLsb' 6 2) ∨
      (∃ alarms, h = 1 ∧ rest[n + 1]? = some alarms ∧ alarms.extractLsb' 2 6 ≠ 0) ∨
      (∃ echo, e = 1 ∧ rest[n + 5 * h]? = some echo ∧ echo.extractLsb' 4 3 ≠ 0) →
    parseHeadStatus station kind (flags :: count :: phases :: rest) = none) ∧
  (∀ (s : State) (l : LinkId) (polarity : Polarity) (rx : Rx) (station kind : Octet)
    (body : List Octet), s.settled → (s.link l).listening polarity rx →
    1 ≤ body.length → body.length ≤ 34 →
    (parseHeadStatus station kind body = none → (s.link l).run + 1 < s.threshold l →
      exec (.headStatusTelegram l (onTheWire polarity station kind body)) s =
        .next (State.afterEvent { s with
          toPart := s.toPart.setLink l { s.link l with
            mode := .locked polarity .wait
            run := (s.link l).run + 1
            counts := { (s.link l).counts with
              format := min ((s.link l).counts.format + 1) 65535 } } })) ∧
    (parseHeadStatus station kind body ≠ none → s.activeTable.stationMap l station = none →
      exec (.headStatusTelegram l (onTheWire polarity station kind body)) s =
        .next (State.afterEvent { s with
          toPart := s.toPart.setLink l { s.link l with
            mode := .locked polarity .wait
            strays := min ((s.link l).strays + 1) 65535 } }))) ∧
  (∀ (s : State) (l : LinkId) (h : HeadId) (polarity : Polarity) (rx : Rx) (station : Octet)
    (body : List Octet) (t : HeadTelegram) (b : Baseline), s.hears l h station polarity rx →
    1 ≤ body.length → body.length ≤ 34 → parseHeadStatus station 0x01 body = some t →
    t.restart = false → (s.head h).state ≠ .absent → (s.head h).baseline = some b →
    t.sequence = b.sequence →
    exec (.headStatusTelegram l (onTheWire polarity station 0x01 body)) s =
      .next (State.afterEvent { s with
        toPart := ((s.toPart.setLink l { s.link l with
            mode := .locked polarity .wait
            repeats := min ((s.link l).repeats + 1) 65535 }).setHead h
          (if (s.head h).state = .failed then s.head h
            else { s.head h with
              silence := .running (s.headCfg h).silenceTimeout.toNat })).copied l h station body }))

/-- R24 to R40, R60 and R65 for a head IN_SERVICE or FAILED. A telegram of a mapped head, in any state, is
taken as one event; the link's run is then 0 or, for a repeat, its repeat count one higher; and the copy is
offered where the mirror flag is set. Of an IN_SERVICE head, whose silence timer restarts: a restart marker
fails it with HEAD_RESTARTED; in order, its changes are delivered and its decoder must end at the present
phase; a gap with no change unseen offers GAP_BRIDGED and goes on; any other gap fails it with
SEQUENCE_LOSS. Of a FAILED head the list is dropped, whatever the sequence, but for a repeat. Then the later
steps in order: the health block is stored; a low level or the supply alarm fails an IN_SERVICE head, and so
does another identity than the expected; the temperature alarm and a new learned identity give their
notices, and FAILED heads learn too; an echo that matches the command awaiting it completes it DONE, and any
other is ignored; the baseline is taken. Last, a heartbeat in order that finds its phase restarts the
silence timer, moves the baseline, sets the run to 0, is copied, and does nothing else. The order of
HEAD_STATE, HEAD_TEMPERATURE and IDENTITY_LEARNED within one health block is log 11's (DEDUCED, the model's
reading). -/
def Obligations.HeartbeatInOrderIsTaken : Prop :=
  (∀ (s : State) (l : LinkId) (h : HeadId) (polarity : Polarity) (rx : Rx) (station : Octet)
    (body : List Octet) (t : HeadTelegram) (taken : Part × Bool),
    s.hears l h station polarity rx → 1 ≤ body.length → body.length ≤ 34 →
    parseHeadStatus station 0x01 body = some t →
    taken = (s.toPart.setLink l { s.link l with mode := .locked polarity .wait }).takeTelegram l h t →
    exec (.headStatusTelegram l (onTheWire polarity station 0x01 body)) s =
      .next (State.afterEvent { s with
        toPart := (taken.1.setLink l
          (if taken.2 then
            { taken.1.link l with repeats := min ((taken.1.link l).repeats + 1) 65535 }
          else { taken.1.link l with run := 0 })).copied l h station body })) ∧
  (∀ (p : Part) (l : LinkId) (h : HeadId) (t : HeadTelegram), (p.head h).state = .inService →
    (t.restart = true →
      p.takeTelegram l h t =
        (((p.heard h).failHead h .headRestarted).laterSteps l h t, false)) ∧
    (∀ b, t.restart = false → (p.head h).baseline = some b →
      (t.sequence = b.sequence + 1 →
        p.takeTelegram l h t =
          (((p.heard h).changeListInService h t).laterSteps l h t, false)) ∧
      (t.sequence = b.sequence → p.takeTelegram l h t = (p.heard h, true)) ∧
      (t.sequence ≠ b.sequence + 1 → t.sequence ≠ b.sequence →
        (t.changeCount - b.changeCount - BitVec.ofNat 8 t.changes.length = 0 →
          p.takeTelegram l h t =
            ((((p.heard h).offer
              (.gapBridged h (t.sequence - b.sequence - 1).toNat)).changeListInService h t).laterSteps
                l h t, false)) ∧
        (t.changeCount - b.changeCount - BitVec.ofNat 8 t.changes.length ≠ 0 →
          p.takeTelegram l h t =
            (((p.heard h).failHead h .sequenceLoss).laterSteps l h t, false)))) ∧
    (∀ q, p.deliver h t.changes = (q, false) →
      ((q.decoder h).phase = t.phase → p.changeListInService h t = q) ∧
      ((q.decoder h).phase ≠ t.phase →
        p.changeListInService h t = q.failHead h .phaseError))) ∧
  (∀ (p : Part) (l : LinkId) (h : HeadId) (t : HeadTelegram), (p.head h).state = .failed →
    (t.restart = true → p.takeTelegram l h t = (p.laterSteps l h t, false)) ∧
    (∀ b, t.restart = false → (p.head h).baseline = some b →
      (t.sequence = b.sequence → p.takeTelegram l h t = (p, true)) ∧
      (t.sequence ≠ b.sequence → p.takeTelegram l h t = (p.laterSteps l h t, false)))) ∧
  (∀ (p : Part) (l : LinkId) (h : HeadId) (t : HeadTelegram),
    p.laterSteps l h t = (((p.healthStep h t).echoStep l t).baselineStep h t).admissionStep h ∧
    (t.health = none → p.healthStep h t = p) ∧
    p.baselineStep h t = p.setHead h { p.head h with
      baseline := some { sequence := t.sequence, changeCount := t.changeCount } } ∧
    ((p.head h).state ≠ .acquiring → p.admissionStep h = p)) ∧
  (∀ (p : Part) (h : HeadId) (t : HeadTelegram) (b : Health), t.health = some b →
    ((p.head h).state = .failed →
      p.healthStep h t = (p.setHead h (p.withHealth h b)).notified (p.healthNotices h b)) ∧
    ((p.head h).state = .inService →
      (∀ cause,
        (p.levelLow h b ∧ cause = .sensorLow ∨
          ¬ p.levelLow h b ∧ b.supplyAlarm = true ∧ cause = .supplyAlarm) →
        p.healthStep h t =
          ((p.setHead h (p.withHealth h b)).failHead h cause).notified (p.healthNotices h b)) ∧
      (¬ p.levelLow h b → b.supplyAlarm = false →
        ((p.headCfg h).expected = 0 ∨ (p.headCfg h).expected = b.identity →
          p.healthStep h t =
            (p.setHead h (p.withHealth h b)).notified (p.healthNotices h b)) ∧
        ((p.headCfg h).expected ≠ 0 → (p.headCfg h).expected ≠ b.identity →
          p.healthStep h t =
            ((p.setHead h (p.withHealth h b)).notified
              ((p.head h).temperatureNotices h b)).failHead h .identityMismatch)))) ∧
  (∀ (p : Part) (l : LinkId) (t : HeadTelegram),
    (t.echo = none → p.echoStep l t = p) ∧
    (∀ e, t.echo = some e →
      (∀ c rest, (p.link l).queue = c :: rest → c.stage = .awaitingEcho → c.station = t.station →
        c.code = e.code → c.tag = e.tag →
        p.echoStep l t =
          (p.setLink l { p.link l with queue := rest, timer := .stopped }).notified
            [.relayResult l c.target c.station c.code c.tag .done]) ∧
      ((∀ c rest, (p.link l).queue = c :: rest → c.stage ≠ .awaitingEcho ∨ c.station ≠ t.station ∨
          c.code ≠ e.code ∨ c.tag ≠ e.tag) →
        p.echoStep l t = p))) ∧
  (∀ (s : State) (l : LinkId) (h : HeadId) (polarity : Polarity) (rx : Rx) (station : Octet)
    (body : List Octet) (t : HeadTelegram) (b : Baseline), s.hears l h station polarity rx →
    1 ≤ body.length → body.length ≤ 34 → parseHeadStatus station 0x01 body = some t →
    t.restart = false → t.changes = [] → t.health = none → t.echo = none →
    (s.head h).state = .inService → (s.head h).baseline = some b →
    t.sequence = b.sequence + 1 → (s.decoder h).phase = t.phase →
    exec (.headStatusTelegram l (onTheWire polarity station 0x01 body)) s =
      .next (State.afterEvent { s with
        toPart := ((s.toPart.setLink l ((s.link l).afterTaken polarity)).setHead h
          { s.head h with
            silence := .running (s.headCfg h).silenceTimeout.toNat
            baseline := some
              { sequence := t.sequence, changeCount := t.changeCount } }).copied l h station body }))

/-- R41 with R25 to R40 and R46 for a head ABSENT or ACQUIRING. From ABSENT a telegram takes the head to
ACQUIRING, starts the silence timer and offers HEAD_STATE; the sequence is not judged; the admission run is
then 1 after a heartbeat at FREE and else 0, and 0 after a restart marker. In ACQUIRING the timer restarts;
a restart marker, a bridged gap (with GAP_BRIDGED) and a gap that cannot be bridged set the run to 0 and
clear the identity-confirmed flag; in order, a heartbeat at FREE raises the run up to 16 and any other
telegram sets it to 0 and clears the flag; a repeat goes no further. The health block: a low level or the
supply alarm sets the run to 0 and clears the flag; the expected identity then sets the flag, and another
fails the head with IDENTITY_MISMATCH. Admission: at the acquire count, with the identity learned or
confirmed, the head goes to IN_SERVICE, its decoder to FREE, NONE and rock count 0 with its tallies kept, and
HEAD_STATE is offered. Last, the first telegram of an acquisition with no marker, health block or echo, whose
acquire count is at least 2. The order of HEAD_TEMPERATURE, IDENTITY_LEARNED and HEAD_STATE within one health
block is log 11's (DEDUCED, the model's reading). -/
def Obligations.AcquisitionBegins : Prop :=
  (∀ (p begun : Part) (l : LinkId) (h : HeadId) (t : HeadTelegram), (p.head h).state = .absent →
    begun = (p.setHead h { p.head h with
      state := .acquiring, run := 0, identityConfirmed := false
      silence := .running (p.headCfg h).silenceTimeout.toNat }).notified
        [.headState h .acquiring (p.head h).lastCause] →
    (t.restart = true → p.takeTelegram l h t = (begun.laterSteps l h t, false)) ∧
    (t.restart = false →
      p.takeTelegram l h t =
        ((begun.setHead h { begun.head h with
          run := if t.changes = [] ∧ t.phase = .free then 1 else 0 }).laterSteps l h t, false))) ∧
  (∀ (p restarted : Part) (l : LinkId) (h : HeadId) (t : HeadTelegram),
    (p.head h).state = .acquiring →
    restarted = (p.heard h).setHead h { (p.heard h).head h with
      run := 0, identityConfirmed := false } →
    (t.restart = true → p.takeTelegram l h t = (restarted.laterSteps l h t, false)) ∧
    (∀ b, t.restart = false → (p.head h).baseline = some b →
      (t.sequence = b.sequence + 1 →
        (t.changes = [] → t.phase = .free →
          p.takeTelegram l h t =
            (((p.heard h).setHead h { (p.heard h).head h with
              run := min ((p.head h).run + 1) 16 }).laterSteps l h t, false)) ∧
        (t.changes ≠ [] ∨ t.phase ≠ .free →
          p.takeTelegram l h t = (restarted.laterSteps l h t, false))) ∧
      (t.sequence = b.sequence → p.takeTelegram l h t = (p.heard h, true)) ∧
      (t.sequence ≠ b.sequence + 1 → t.sequence ≠ b.sequence →
        (t.changeCount - b.changeCount - BitVec.ofNat 8 t.changes.length = 0 →
          p.takeTelegram l h t =
            ((restarted.notified
              [.gapBridged h (t.sequence - b.sequence - 1).toNat]).laterSteps l h t, false)) ∧
        (t.changeCount - b.changeCount - BitVec.ofNat 8 t.changes.length ≠ 0 →
          p.takeTelegram l h t = (restarted.laterSteps l h t, false))))) ∧
  (∀ (p : Part) (h : HeadId) (t : HeadTelegram) (b : Health), t.health = some b →
    (p.head h).state = .acquiring →
    ((p.headCfg h).expected = 0 ∨ (p.headCfg h).expected = b.identity →
      (p.levelLow h b ∨ b.supplyAlarm = true →
        p.healthStep h t =
          (p.setHead h { p.withHealth h b with
            run := 0, identityConfirmed := decide ((p.headCfg h).expected ≠ 0) }).notified
              (p.healthNotices h b)) ∧
      (¬ p.levelLow h b → b.supplyAlarm = false →
        p.healthStep h t =
          (p.setHead h { p.withHealth h b with
            identityConfirmed := decide ((p.headCfg h).expected ≠ 0) ||
              (p.head h).identityConfirmed }).notified (p.healthNotices h b))) ∧
    ((p.headCfg h).expected ≠ 0 → (p.headCfg h).expected ≠ b.identity →
      p.healthStep h t =
        (p.setHead h { p.withHealth h b with
          state := .failed, lastCause := .identityMismatch, silence := .stopped, run := 0
          identityConfirmed := false }).notified
            ((p.head h).temperatureNotices h b ++ [.headState h .failed .identityMismatch]))) ∧
  (∀ (p : Part) (h : HeadId), (p.head h).state = .acquiring →
    ((p.headCfg h).acquireCount.toNat ≤ (p.head h).run →
      (p.headCfg h).expected = 0 ∨ (p.head h).identityConfirmed = true →
      p.admissionStep h =
        ((p.setHead h { p.head h with state := .inService }).setDecoder h
          { p.decoder h with phase := .free, side := .none, rock := 0 }).notified
            [.headState h .inService (p.head h).lastCause]) ∧
    ((p.head h).run < (p.headCfg h).acquireCount.toNat ∨
        (p.headCfg h).expected ≠ 0 ∧ (p.head h).identityConfirmed = false →
      p.admissionStep h = p)) ∧
  (∀ (s : State) (l : LinkId) (h : HeadId) (polarity : Polarity) (rx : Rx) (station : Octet)
    (body : List Octet) (t : HeadTelegram), s.hears l h station polarity rx →
    1 ≤ body.length → body.length ≤ 34 → parseHeadStatus station 0x01 body = some t →
    t.restart = false → t.health = none → t.echo = none →
    (s.head h).state = .absent → 2 ≤ (s.headCfg h).acquireCount.toNat →
    exec (.headStatusTelegram l (onTheWire polarity station 0x01 body)) s =
      .next (State.afterEvent { s with
        toPart := (((s.toPart.setLink l ((s.link l).afterTaken polarity)).setHead h
            { s.head h with
              state := .acquiring
              run := if t.changes = [] ∧ t.phase = .free then 1 else 0
              identityConfirmed := false
              silence := .running (s.headCfg h).silenceTimeout.toNat
              baseline := some
                { sequence := t.sequence, changeCount := t.changeCount } }).setReport
          (s.report.offer (.headState h .acquiring (s.head h).lastCause))).copied
            l h station body }))

/-- R7, R4, R94, R24, R39, R109 and R60: an IN_SERVICE head whose wheel stood at B_ONLY after it entered on A
reports FREE, in order, with no health block and no echo. The decoder returns to FREE with tally AB one
higher and its rock count 0. In RUNNING each section of the head's boundary index takes the wheel once,
inward where its direction is AB, and is marked, in ascending number, unless it was DISTURBED or took an
outward wheel in RESTORING at count 0; in any other evaluator state no section is moved. Nothing else but
the silence timer, the baseline, the link's run and the mirror buffer changes. -/
def Obligations.CrossingIsCounted : Prop :=
  ∀ (s : State) (l : LinkId) (h : HeadId) (polarity : Polarity) (rx : Rx) (station : Octet)
    (body : List Octet) (t : HeadTelegram) (b : Baseline), s.hears l h station polarity rx →
    1 ≤ body.length → body.length ≤ 34 → parseHeadStatus station 0x01 body = some t →
    t.restart = false → t.changes = [.free] → t.health = none → t.echo = none →
    (s.head h).state = .inService → (s.head h).baseline = some b →
    t.sequence = b.sequence + 1 → (s.decoder h).phase = .bOnly → (s.decoder h).side = .a →
    ∃ u : State,
      exec (.headStatusTelegram l (onTheWire polarity station 0x01 body)) s = .next u.afterEvent ∧
      (∀ i, u.sec i =
        if s.evaluator = .running ∧ (s.sectionCfg i).present = true then
          match (s.sectionCfg i).inwardAt h with
          | some d => ((s.sec i).wheel (s.sectionCfg i) (d == 1)).1
          | none => s.sec i
        else s.sec i) ∧
      u = { s with
        toPart := ({ (((s.toPart.setLink l ((s.link l).afterTaken polarity)).setHead h
            { s.head h with
              silence := .running (s.headCfg h).silenceTimeout.toNat
              baseline := some { sequence := t.sequence, changeCount := t.changeCount } }).setDecoder
            h { s.decoder h with
              phase := .free, side := .none, rock := 0, tallyAB := (s.decoder h).tallyAB + 1 }) with
          sections := u.sections
          report := { s.report with
            queue := s.report.queue ++ (List.finRange 24).filter fun i =>
              decide (s.evaluator = .running) && (s.sectionCfg i).present &&
                (match (s.sectionCfg i).inwardAt h with
                  | none => false
                  | some d =>
                    decide ((s.sec i).state ≠ .absent) && decide ((s.sec i).state ≠ .disturbed) &&
                      !(decide ((s.sec i).state = .restoring) && decide ((s.sec i).count = 0) &&
                        decide (d ≠ 1))) &&
                decide (i ∉ s.report.queue) } } : Part).copied l h station body }

/-! ## The phase decoder and the head record -/

/-- R5, R6, R9 and R10: an entry from FREE to A_ONLY or B_ONLY begins a passage on that side, an entry to
an adjacent phase other than FREE moves the phase alone, and both return moved. An entry that names the
decoder's own phase, or a phase not adjacent to it, is a phase error that leaves the decoder's record as it
was; wherever it stands in the list, the supervisor then fails the head with PHASE_ERROR, delivers no
further entry of the telegram, and the decoder gets the departure reset of R16. -/
def Obligations.EntriesThatMoveTheWheelOrAreErrors : Prop :=
  (∀ (d : DecoderRec) (limit : Nat),
    (d.phase = .free →
      d.judge limit .aOnly = ({ d with phase := .aOnly, side := .a }, .moved) ∧
      d.judge limit .bOnly = ({ d with phase := .bOnly, side := .b }, .moved)) ∧
    (d.phase = .aOnly → d.judge limit .both = ({ d with phase := .both }, .moved)) ∧
    (d.phase = .both → d.judge limit .aOnly = ({ d with phase := .aOnly }, .moved)) ∧
    (d.phase = .both → d.judge limit .bOnly = ({ d with phase := .bOnly }, .moved)) ∧
    (d.phase = .bOnly → d.judge limit .both = ({ d with phase := .both }, .moved))) ∧
  (∀ (d : DecoderRec) (limit : Nat) (entry : Phase),
    entry = d.phase ∨ d.phase = .free ∧ entry = .both ∨ d.phase = .both ∧ entry = .free ∨
      d.phase = .aOnly ∧ entry = .bOnly ∨ d.phase = .bOnly ∧ entry = .aOnly →
    d.judge limit entry = (d, .phaseError)) ∧
  (∀ (p q : Part) (h : HeadId) (t : HeadTelegram) (done : List Phase) (entry : Phase)
    (rest : List Phase), t.changes = done ++ entry :: rest → p.deliver h done = (q, false) →
    (q.head h).state = .inService →
    (q.decoder h).judge (q.headCfg h).rockLimit.toNat entry = (q.decoder h, .phaseError) →
    p.changeListInService h t = q.failHead h .phaseError ∧
      (q.failHead h .phaseError).head h =
        { q.head h with
          state := .failed, lastCause := .phaseError, silence := .stopped, run := 0
          identityConfirmed := false } ∧
      (q.failHead h .phaseError).decoder h =
        { q.decoder h with phase := .free, side := .none, rock := 0 })

/-- R7 and R8: a wheel event comes exactly of a change to FREE from the single-sensor phase opposite to
the entry side; it raises the tally of its direction, clears the rock count and is handed to the section
evaluator. A return to FREE on the side of entry raises the rock count, and offers HEAD_ROCKING with the
count set to 0 when the raised count is at or above the rock limit. -/
def Obligations.ReturnsToFree : Prop :=
  (∀ (d : DecoderRec) (limit : Nat) (entry : Phase) (dir : Dir),
    (d.judge limit entry).2 = .wheel dir ↔
      entry = .free ∧ (d.phase = .bOnly ∧ d.side = .a ∧ dir = .ab ∨
        d.phase = .aOnly ∧ d.side = .b ∧ dir = .ba)) ∧
  (∀ (p : Part) (h : HeadId), (p.decoder h).phase = .bOnly → (p.decoder h).side = .a →
    p.deliverEntry h .free =
      ((p.setDecoder h { p.decoder h with
        phase := .free, side := .none, rock := 0
        tallyAB := (p.decoder h).tallyAB + 1 }).wheelEvent h .ab, false)) ∧
  (∀ (p : Part) (h : HeadId), (p.decoder h).phase = .aOnly → (p.decoder h).side = .b →
    p.deliverEntry h .free =
      ((p.setDecoder h { p.decoder h with
        phase := .free, side := .none, rock := 0
        tallyBA := (p.decoder h).tallyBA + 1 }).wheelEvent h .ba, false)) ∧
  (∀ (p : Part) (h : HeadId),
    (p.decoder h).phase = .aOnly ∧ (p.decoder h).side = .a ∨
      (p.decoder h).phase = .bOnly ∧ (p.decoder h).side = .b →
    ((p.decoder h).rock + 1 < (p.headCfg h).rockLimit.toNat →
      p.deliverEntry h .free =
        (p.setDecoder h { p.decoder h with
          phase := .free, side := .none, rock := (p.decoder h).rock + 1 }, false)) ∧
    ((p.headCfg h).rockLimit.toNat ≤ (p.decoder h).rock + 1 →
      p.deliverEntry h .free =
        ((p.setDecoder h { p.decoder h with phase := .free, side := .none, rock := 0 }).offer
          (.headRocking h (p.decoder h).side), false)))

/-- R39, with R28 and R32: the baseline becomes the sequence and change count of every telegram that reaches
the supervisor, except a repeat, which leaves it as it was. A telegram is a repeat exactly when its restart
marker is clear, the head is not ABSENT, and its sequence is that of the baseline the head holds; and the
link is told of a repeat, and of nothing else, that it was one. -/
def Obligations.BaselineFollowsEveryTelegramButARepeat : Prop :=
  ∀ (p : Part) (l : LinkId) (h : HeadId) (t : HeadTelegram) (repeated : Prop),
    (repeated ↔ t.restart = false ∧ (p.head h).state ≠ .absent ∧
      ∃ b, (p.head h).baseline = some b ∧ t.sequence = b.sequence) →
    ((p.takeTelegram l h t).2 = true ↔ repeated) ∧
    (¬ repeated →
      ((p.takeTelegram l h t).1.head h).baseline =
        some { sequence := t.sequence, changeCount := t.changeCount }) ∧
    (repeated → ((p.takeTelegram l h t).1.head h).baseline = (p.head h).baseline)

/-- R26 with R42, R43, R16, R46, R104 and R102: at its silence expiry an ACQUIRING head goes to ABSENT, and
an IN_SERVICE head fails with SILENCE, which resets its decoder and disturbs each present section not yet
DISTURBED that names it and marks it, in ascending number. A timer that is stopped has no expiry (R1). -/
def Obligations.SilenceExpires : Prop :=
  ∀ (s : State) (h : HeadId), s.awake →
    ((s.head h).silence = .stopped → exec (.silenceExpiry h) s = .next s.afterEvent) ∧
    ((s.head h).silence ≠ .stopped → (s.head h).state = .acquiring →
      exec (.silenceExpiry h) s = .next (State.afterEvent { s with
        toPart := (s.toPart.setHead h { s.head h with
          state := .absent, baseline := none, run := 0, identityConfirmed := false
          silence := .stopped }).setReport
            (s.report.offer (.headState h .absent (s.head h).lastCause)) })) ∧
    ((s.head h).silence ≠ .stopped → (s.head h).state = .inService →
      ∃ t : State, exec (.silenceExpiry h) s = .next t.afterEvent ∧
        (∀ i, t.sec i =
          if (s.sectionCfg i).present = true ∧ (s.sectionCfg i).names h = true ∧
              (s.sec i).state ≠ .disturbed then
            { s.sec i with
              state := .disturbed, count := 0, confirm := .stopped, sweep := false
              cause := .headFailed h .silence, number := (s.sec i).number + 1
              latch := (s.sec i).latch || decide ((s.sec i).state = .clear) }
          else s.sec i) ∧
        t = { s with
          toPart := { ((s.toPart.setHead h { s.head h with
              state := .failed, lastCause := .silence, silence := .stopped, run := 0
              identityConfirmed := false }).setDecoder h
            { s.decoder h with phase := .free, side := .none, rock := 0 }) with
            sections := t.sections
            report := { s.report.offer (.headState h .failed .silence) with
              queue := s.report.queue ++ (List.finRange 24).filter fun i =>
                (s.sectionCfg i).present && (s.sectionCfg i).names h &&
                  decide ((s.sec i).state ≠ .disturbed) && decide (i ∉ s.report.queue) } } })

/-! ## The sections -/

/-- R95, R96, R97 and R98: what a wheel does to a section in CLEAR, OCCUPIED and CLEARING, each change
with its mark; and to a DISTURBED section it does nothing (R99). The sweep flag of an OCCUPIED section is
clear in every state that a sound one leads to (`StepsKeepCountsSound`). -/
def Obligations.WheelsMoveSections : Prop :=
  ∀ (p : Part) (i : SectionId) (disturbed : Cause → Part),
    (∀ cause, disturbed cause = (p.setSec i { p.sec i with
      state := .disturbed, count := 0, confirm := .stopped, sweep := false, cause := cause
      number := (p.sec i).number + 1
      latch := (p.sec i).latch || decide ((p.sec i).state = .clear) }).mark i) →
    ((p.sec i).state = .clear →
      p.applyWheel i true =
        (p.setSec i { p.sec i with state := .occupied, count := 1, latch := true }).mark i ∧
      p.applyWheel i false = disturbed .underflow) ∧
    ((p.sec i).state = .occupied →
      ((p.sec i).count < (p.sectionCfg i).countLimit.toNat →
        p.applyWheel i true =
          (p.setSec i { p.sec i with count := (p.sec i).count + 1 }).mark i) ∧
      ((p.sec i).count = (p.sectionCfg i).countLimit.toNat →
        p.applyWheel i true = disturbed .overflow) ∧
      (1 < (p.sec i).count →
        p.applyWheel i false =
          (p.setSec i { p.sec i with count := (p.sec i).count - 1 }).mark i) ∧
      ((p.sec i).count = 1 → (p.sec i).sweep = false →
        (0 < (p.sectionCfg i).confirmTime.toNat →
          p.applyWheel i false = (p.setSec i { p.sec i with
            state := .clearing, count := 0
            confirm := .running (p.sectionCfg i).confirmTime.toNat }).mark i) ∧
        ((p.sectionCfg i).confirmTime = 0 →
          p.applyWheel i false =
            (p.setSec i { p.sec i with state := .clear, count := 0 }).mark i))) ∧
    ((p.sec i).state = .clearing →
      p.applyWheel i true = (p.setSec i { p.sec i with
        state := .occupied, count := 1, confirm := .stopped }).mark i ∧
      p.applyWheel i false = disturbed .underflow) ∧
    ((p.sec i).state = .disturbed →
      (p.applyWheel i true).sec i = p.sec i ∧ (p.applyWheel i true).report = p.report ∧
      (p.applyWheel i false).sec i = p.sec i ∧ (p.applyWheel i false).report = p.report)

/-- R117, R118, R119 and R120: what a wheel does to a section in RESTORING. With count 0 an outward wheel is
tallied, up to 255, and marks nothing (R119). At count 1 the completion of the sweep is R118's where the
sweep flag is set; with the flag clear, which R118 leaves unspecified and `StepsKeepCountsSound` rules out,
it is log 14's (DESIGN CHOICE, the model's). -/
def Obligations.WheelsMoveARestoringSection : Prop :=
  ∀ (p : Part) (i : SectionId), (p.sec i).state = .restoring →
    ((p.sec i).count < (p.sectionCfg i).countLimit.toNat →
      p.applyWheel i true =
        (p.setSec i { p.sec i with count := (p.sec i).count + 1, sweep := true }).mark i) ∧
    ((p.sec i).count = (p.sectionCfg i).countLimit.toNat →
      p.applyWheel i true = (p.setSec i { p.sec i with
        state := .disturbed, count := 0, confirm := .stopped, sweep := false, cause := .overflow
        number := (p.sec i).number + 1 }).mark i) ∧
    (1 < (p.sec i).count →
      p.applyWheel i false =
        (p.setSec i { p.sec i with count := (p.sec i).count - 1 }).mark i) ∧
    ((p.sec i).count = 1 →
      (0 < (p.sectionCfg i).confirmTime.toNat →
        p.applyWheel i false = (p.setSec i { p.sec i with
          state := .clearing, count := 0, sweep := false
          confirm := .running (p.sectionCfg i).confirmTime.toNat }).mark i) ∧
      ((p.sectionCfg i).confirmTime = 0 →
        p.applyWheel i false =
          (p.setSec i { p.sec i with state := .clear, count := 0, sweep := false }).mark i)) ∧
    ((p.sec i).count = 0 →
      p.applyWheel i false =
        p.setSec i { p.sec i with tally := min ((p.sec i).tally + 1) 255 })

/-- R101: at its confirm expiry a section in CLEARING goes to CLEAR and is marked, and nothing else
changes. A timer that is stopped has no expiry (R1). -/
def Obligations.ConfirmExpires : Prop :=
  ∀ (s : State) (i : SectionId), s.awake →
    ((s.sec i).confirm = .stopped → exec (.confirmExpiry i) s = .next s.afterEvent) ∧
    ((s.sec i).confirm ≠ .stopped → (s.sec i).state = .clearing →
      exec (.confirmExpiry i) s = .next (State.afterEvent { s with
        toPart := (s.toPart.setSec i { s.sec i with state := .clear, confirm := .stopped }).setReport
          (s.report.mark i) }))

/-- R149, R152 and R153: a mark adds a section that is not queued at the back and leaves one that is; a
notice joins at the back of a queue that holds fewer than 16, and is lost to one that holds 16, which
sets the overrun flag, or its set-again mark while a telegram that carries the flag set is on the line.
R150: at its expiry the report cycle marks every present section in ascending number and starts anew with
the period in force. A timer that is stopped has no expiry (R1). -/
def Obligations.MarksNoticesAndTheReportCycle : Prop :=
  (∀ (r : ReportUnit) (i : SectionId) (n : Notice),
    (i ∈ r.queue → r.mark i = r) ∧
    (i ∉ r.queue → r.mark i = { r with queue := r.queue ++ [i] }) ∧
    (r.notices.length < 16 → r.offer n = { r with notices := r.notices ++ [n] }) ∧
    (16 ≤ r.notices.length →
      ((∃ t, r.transmitter = some t ∧ t.notedOverrun = true) →
        r.offer n = { r with overrunAgain := true }) ∧
      ((∀ t, r.transmitter = some t → t.notedOverrun = false) →
        r.offer n = { r with overrun := true }))) ∧
  (∀ s : State, s.awake →
    (s.report.cycleTimer = .stopped → exec .reportCycleExpiry s = .next s.afterEvent) ∧
    (s.report.cycleTimer ≠ .stopped →
      exec .reportCycleExpiry s = .next (State.afterEvent { s with
        report := { s.report with
          queue := s.report.queue ++ (List.finRange 24).filter fun i =>
            (s.sectionCfg i).present && decide (i ∉ s.report.queue)
          cycleTimer := .running s.activeTable.global.reportCycle.toNat } })))

/-! ## The relay path -/

/-- R61, R64 and R165: a relay telegram starts exactly when the transmitter is idle, the link LOCKED, the
queue head WAITING and the receiver not in FRAME. At its last octet the transmitter is idle, a LOCKED
link's receiver is in HUNT, and the queue head in TRANSMITTING awaits its echo for 200 ms, or, a
broadcast, leaves the queue with result SENT. With nothing on the line there is no last octet, and the
command changes nothing (log 6, DEDUCED, the model's reading). -/
def Obligations.RelayTelegramsGoOut : Prop :=
  (∀ (s : State) (l : LinkId) (polarity : Polarity) (rx : Rx) (c : RelayCommand)
    (rest : List RelayCommand), s.awake → (s.link l).transmitter = none →
    (s.link l).mode = .locked polarity rx → (∀ octets, rx ≠ .frame octets) →
    (s.link l).queue = c :: rest → c.stage = .waiting →
    exec (.relayTransmissionStart l) s = .next (State.afterEvent { s with
      toPart := s.toPart.setLink l { s.link l with
        transmitter := some ((telegram c.station 0x02
          [(match c.code with
            | .restart => 0x00#8
            | .healthRequest => 0x80#8) ||| c.tag.setWidth 8]).map polarity.apply)
        queue := { c with stage := .transmitting } :: rest } })) ∧
  (∀ (s : State) (l : LinkId), s.awake →
    ((s.link l).transmitter ≠ none ∨ (∀ polarity rx, (s.link l).mode = .locked polarity rx →
      ∃ octets, rx = .frame octets) ∨ (∀ c rest, (s.link l).queue = c :: rest → c.stage ≠ .waiting)) →
    exec (.relayTransmissionStart l) s = .next s.afterEvent) ∧
  (∀ (s : State) (l : LinkId) (octets : List Octet) (received : LinkMode), s.awake →
    (s.link l).transmitter = some octets →
    received = (match (s.link l).mode with
      | .locked polarity _ => .locked polarity .hunt
      | mode => mode) →
    (∀ c rest h, (s.link l).queue = c :: rest → c.stage = .transmitting → c.target = .head h →
      exec (.relayTransmissionEnd l) s = .next (State.afterEvent { s with
        toPart := s.toPart.setLink l { s.link l with
          mode := received, transmitter := none
          queue := { c with stage := .awaitingEcho } :: rest, timer := .running 200 } })) ∧
    (∀ c rest, (s.link l).queue = c :: rest → c.stage = .transmitting → c.target = .broadcast →
      exec (.relayTransmissionEnd l) s = .next (State.afterEvent { s with
        toPart := (s.toPart.setLink l { s.link l with
          mode := received, transmitter := none, queue := rest, timer := .stopped }).setReport
            (s.report.offer (.relayResult l .broadcast c.station c.code c.tag .sent)) })) ∧
    ((∀ c rest, (s.link l).queue = c :: rest → c.stage ≠ .transmitting) →
      exec (.relayTransmissionEnd l) s = .next (State.afterEvent { s with
        toPart := s.toPart.setLink l { s.link l with
          mode := received, transmitter := none } }))) ∧
  (∀ (s : State) (l : LinkId), s.awake → (s.link l).transmitter = none →
    exec (.relayTransmissionEnd l) s = .next s.afterEvent)

/-- R66: at the expiry of a link's relay timer the queue head is removed with result NO_ECHO, the next
command stands at the front as it was, and RELAY_RESULT is offered. In a state whose relay queues are sound
(`StepsKeepRelaysSound`) the command removed is in stage AWAITING_ECHO and the next in stage WAITING. A
head's failure stops no relay timer and cancels no command. A timer that is stopped has no expiry (R1). -/
def Obligations.RelayTimerExpires : Prop :=
  (∀ (s : State) (l : LinkId), s.awake → (s.link l).timer = .stopped →
    exec (.relayTimerExpiry l) s = .next s.afterEvent) ∧
  (∀ (s : State) (l : LinkId) (c : RelayCommand) (rest : List RelayCommand), s.awake →
    (s.link l).timer ≠ .stopped → (s.link l).queue = c :: rest →
    exec (.relayTimerExpiry l) s = .next (State.afterEvent { s with
      toPart := (s.toPart.setLink l { s.link l with queue := rest, timer := .stopped }).setReport
        (s.report.offer (.relayResult l c.target c.station c.code c.tag .noEcho)) })) ∧
  (∀ (s : State) (l : LinkId), s.toPart.RelaysSound → (s.link l).timer ≠ .stopped →
    ∃ c rest, (s.link l).queue = c :: rest ∧ c.stage = .awaitingEcho ∧
      ∀ d ∈ rest, d.stage = .waiting) ∧
  (∀ (p : Part) (h : HeadId) (cause : HeadCause), (p.failHead h cause).links = p.links)

/-! ## Intake of requests -/

/-- R145 and R144: a request that arrives while two replies wait is discarded, whatever its kind and form,
and raises the dropped-request count up to 255; it changes nothing else. -/
def Obligations.RequestsAreDiscardedWhileTwoRepliesWait : Prop :=
  ∀ (s : State) (body : List Octet), s.awake → 2 ≤ s.count.replies.length →
    1 ≤ body.length → body.length ≤ 34 →
    (∀ kc ∈ requestCommands, exec (kc.2 body) s = .next (State.afterEvent { s with
      count := { s.count with rx := .wait, dropped := min (s.count.dropped + 1) 255 } })) ∧
    (∀ kind, exec (.requestOfUnknownKind kind body) s = .next (State.afterEvent { s with
      count := { s.count with rx := .wait, dropped := min (s.count.dropped + 1) 255 } }))

/-- R143 and R166: a request of the wrong length for its kind, or with a code that names none of its named
values, or of a kind that is not of the catalogue, is answered REFUSED FORMAT with its tag and kind and
does nothing else. -/
def Obligations.MalformedRequestsAreRefusedFormat : Prop :=
  ∀ (s : State) (tag : Octet) (fields : List Octet), s.hasRoom → fields.length ≤ 33 →
    (∀ kc ∈ requestCommands,
      (kc.1 ∈ [0x10#8, 0x12, 0x13, 0x1C, 0x1D, 0x1F, 0x20, 0x21, 0x22, 0x23] ∧ fields.length ≠ 0 ∨
        kc.1 ∈ [0x11#8, 0x15, 0x16, 0x17, 0x18] ∧ fields.length ≠ 1 ∨
        kc.1 = 0x1E ∧ fields.length ≠ 2 ∨
        kc.1 ∈ [0x14#8, 0x19, 0x1B] ∧ fields.length ≠ 3 ∨
        kc.1 = 0x1A ∧ fields.length < 2) →
      exec (kc.2 (tag :: fields)) s = s.refusedWith tag kc.1 .format []) ∧
    (∀ a mode b : Octet, mode ≠ 1 → mode ≠ 2 →
      exec (.sectionReset [tag, a, mode, b]) s = s.refusedWith tag 0x14 .format []) ∧
    (∀ form a code : Octet, form ≠ 1 ∧ form ≠ 2 ∨ code ≠ 1 ∧ code ≠ 2 →
      exec (.headRelay [tag, form, a, code]) s = s.refusedWith tag 0x19 .format []) ∧
    (∀ copy kind a : Octet, copy ≠ 1 ∧ copy ≠ 2 ∨ kind ≠ 1 ∧ kind ≠ 2 ∧ kind ≠ 3 →
      exec (.tableRead [tag, copy, kind, a]) s = s.refusedWith tag 0x1B .format []) ∧
    (∀ (kind : Octet) (rest : List Octet), fields = kind :: rest → 1 ≤ rest.length →
      kind ≠ 1 → kind ≠ 2 → kind ≠ 3 →
      exec (.tableWrite (tag :: fields)) s = s.refusedWith tag 0x1A .format []) ∧
    (∀ kind : Octet, (∀ kc ∈ requestCommands, kc.1 ≠ kind) →
      exec (.requestOfUnknownKind kind (tag :: fields)) s = s.refusedWith tag kind .format [])

/-- R142, R50 and R52: a telegram with another address is ignored and leaves the receiver in WAIT; one
with the part's own address is a request of the kind it carries. Octets of no body or of more than 34 are
no telegram (log 7, the model's reading): their length octet makes a LENGTH bad frame. -/
def Obligations.TelegramsAddressedElsewhere : Prop :=
  ∀ (s : State) (address kind : Octet) (body : List Octet), s.awake →
    (1 ≤ body.length → body.length ≤ 34 →
      (address ≠ s.pins.address.setWidth 8 →
        exec (.telegramAddressedElsewhere address kind body) s =
          .next (State.afterEvent { s with count := { s.count with rx := .wait } })) ∧
      (address = s.pins.address.setWidth 8 →
        exec (.telegramAddressedElsewhere address kind body) s =
          exec (.requestOfUnknownKind kind body) s ∧
        ∀ kc ∈ requestCommands, kc.1 = kind →
          exec (.telegramAddressedElsewhere address kind body) s = exec (kc.2 body) s)) ∧
    (body.length = 0 ∨ 34 < body.length →
      ∀ kc ∈ requestCommands, exec (kc.2 body) s = .next (State.afterEvent { s with
        count := { s.count with
          rx := .hunt
          counts := { s.count.counts with length := min (s.count.counts.length + 1) 65535 } } }))

/-! ## Queries -/

/-- R148 and R59: STATUS QUERY and LINK QUERY return the values standing when they are taken, and then
clear the counts they read (LINK QUERY also the lock-change latch) and nothing else. A link above 3 is
refused RANGE. The hold state of the STATUS QUERY reply is coded as a flag, 0 or 1: log 12 (DEDUCED, the
model's reading). -/
def Obligations.QueriesThatClear : Prop :=
  ∀ (s : State) (tag : Octet), s.hasRoom →
    exec (.statusQuery [tag]) s = .next (State.afterEvent { s with
      count := { s.answered tag 0x10 .done
          ([codeEvaluator s.evaluator] ++
            optional 2 (s.tables.active.map fun a => octets16 a.crc) ++
            [codeStagingState s.tables.stagingState, codeImageState s.image.state,
              codeStoreOp s.image.op, codeFlag s.report.held, codeFlag s.report.overrun,
              octetOf s.count.dropped] ++
            twoOctets s.count.counts.syncMiss ++ twoOctets s.count.counts.length ++
            twoOctets s.count.counts.charTimeout ++ twoOctets s.count.counts.crc) with
        dropped := 0
        counts := { syncMiss := 0, length := 0, charTimeout := 0, crc := 0 } } }) ∧
    (∀ l : LinkId,
      exec (.linkQuery [tag, BitVec.ofNat 8 l.val]) s =
        s.answeredAfter (s.toPart.setLink l { s.link l with
            counts := { syncMiss := 0, length := 0, charTimeout := 0, crc := 0, format := 0 }
            strays := 0, repeats := 0, mirrorsDropped := 0, latch := false })
          tag 0x18 .done
          ([codeLinkState (s.link l).state, codePolarity (s.link l).polarity,
              octetOf (s.link l).run] ++
            optional 1 (s.tables.active.map fun a =>
              [(a.table.global.threshold[l]).setWidth 8]) ++
            twoOctets (s.link l).counts.syncMiss ++ twoOctets (s.link l).counts.length ++
            twoOctets (s.link l).counts.charTimeout ++ twoOctets (s.link l).counts.crc ++
            twoOctets (s.link l).counts.format ++ twoOctets (s.link l).strays ++
            twoOctets (s.link l).repeats ++ twoOctets (s.link l).mirrorsDropped ++
            [codeFlag (s.link l).latch, octetOf (s.link l).queue.length,
              (s.link l).tag.setWidth 8])) ∧
    (∀ number : Octet, 4 ≤ number.toNat →
      exec (.linkQuery [tag, number]) s = s.refusedWith tag 0x18 .range [])

/-- R110 and R47, with the codings of R166: SECTION QUERY and HEAD QUERY return the record standing when
they are taken and change nothing. A section above 23 or a head above 31 is refused RANGE. The cause of a
section is sent in three octets, of which the head and its cause are 0 unless it is HEAD_FAILED: log 12
(DEDUCED, the model's reading). -/
def Obligations.QueriesThatChangeNothing : Prop :=
  ∀ (s : State) (tag : Octet), s.hasRoom →
    (∀ i : SectionId,
      exec (.sectionQuery [tag, BitVec.ofNat 8 i.val]) s =
        s.doneWith tag 0x11
          ([codeEvaluator s.evaluator, codeFlag (s.sectionCfg i).present,
              codeSectionState (s.sec i).state] ++ twoOctets (s.sec i).count ++
            [(s.sec i).number] ++ codeCause (s.sec i).cause ++
            [codeFlag (s.sec i).sweep, octetOf (s.sec i).tally, codeFlag (s.sec i).latch] ++
            (match (s.sec i).confirm with
              | .stopped => [0, 0, 0]
              | .running left => 1 :: twoOctets left))) ∧
    (∀ number : Octet, 24 ≤ number.toNat →
      exec (.sectionQuery [tag, number]) s = s.refusedWith tag 0x11 .range []) ∧
    (∀ h : HeadId,
      exec (.headQuery [tag, BitVec.ofNat 8 h.val]) s =
        s.doneWith tag 0x15
          ((if (s.headCfg h).present then [1, (s.headCfg h).link, (s.headCfg h).station]
              else [0, 0, 0]) ++
            [codeHeadState (s.head h).state, codeHeadCause (s.head h).lastCause,
              octetOf (s.head h).run, codeFlag (s.head h).identityConfirmed] ++
            optional 2 ((s.head h).baseline.map fun b => [b.sequence.setWidth 8, b.changeCount]) ++
            optional 5 ((s.head h).health.map fun b =>
              [b.levelA ++ b.levelB,
                (codeFlag b.supplyAlarm <<< 1) ||| codeFlag b.temperatureAlarm] ++
                octets24 b.identity) ++
            optional 3 ((s.head h).learned.map octets24) ++
            [codePhase (s.decoder h).phase, codeSide (s.decoder h).side,
              octetOf (s.decoder h).rock] ++
            octets16 (s.decoder h).tallyAB ++ octets16 (s.decoder h).tallyBA)) ∧
    (∀ number : Octet, 32 ≤ number.toNat →
      exec (.headQuery [tag, number]) s = s.refusedWith tag 0x15 .range [])

/-! ## Requests of the section evaluator -/

/-- R90 and R91: START takes the evaluator from HALTED to RUNNING and moves no section; HALT takes it from
RUNNING to HALTED, and every present section not DISTURBED enters DISTURBED with cause HALT and is marked,
in ascending number. In any other state each is refused STATE. -/
def Obligations.StartAndHalt : Prop :=
  ∀ (s : State) (tag : Octet), s.hasRoom →
    (s.evaluator = .halted →
      exec (.start [tag]) s =
        s.answeredAfter { s.toPart with evaluator := .running } tag 0x12 .done []) ∧
    (s.evaluator ≠ .halted → exec (.start [tag]) s = s.refusedWith tag 0x12 .state []) ∧
    (s.evaluator ≠ .running → exec (.halt [tag]) s = s.refusedWith tag 0x13 .state []) ∧
    (s.evaluator = .running →
      ∃ t : State, exec (.halt [tag]) s = .next t.afterEvent ∧
        (∀ i, t.sec i =
          if (s.sectionCfg i).present = true ∧ (s.sec i).state ≠ .disturbed then
            { s.sec i with
              state := .disturbed, count := 0, confirm := .stopped, sweep := false, cause := .halt
              number := (s.sec i).number + 1
              latch := (s.sec i).latch || decide ((s.sec i).state = .clear) }
          else s.sec i) ∧
        t = { s with
          evaluator := .halted
          sections := t.sections
          report := { s.report with
            queue := s.report.queue ++ (List.finRange 24).filter fun i =>
              (s.sectionCfg i).present && decide ((s.sec i).state ≠ .disturbed) &&
                decide (i ∉ s.report.queue) }
          count := s.answered tag 0x13 .done [] })

/-- R111 to R115: the six checks of SECTION RESET in their order with the refusal of each, the acceptance in
mode SWEEP (RESTORING, tally 0) and in mode DIRECT (CLEAR), each with its mark, and nothing else. -/
def Obligations.SectionResetIsJudged : Prop :=
  ∀ (s : State) (tag number mode quoted : Octet), s.hasRoom → (mode = 1 ∨ mode = 2) →
    (s.evaluator ≠ .running →
      exec (.sectionReset [tag, number, mode, quoted]) s = s.refusedWith tag 0x14 .state []) ∧
    (s.evaluator = .running → 24 ≤ number.toNat →
      exec (.sectionReset [tag, number, mode, quoted]) s = s.refusedWith tag 0x14 .range []) ∧
    (∀ i : SectionId, s.evaluator = .running → number.toNat = i.val →
      ((s.sectionCfg i).present = false →
        exec (.sectionReset [tag, number, mode, quoted]) s = s.refusedWith tag 0x14 .range []) ∧
      ((s.sectionCfg i).present = true → (s.sec i).state ≠ .disturbed →
        exec (.sectionReset [tag, number, mode, quoted]) s = s.refusedWith tag 0x14 .state []) ∧
      ((s.sectionCfg i).present = true → (s.sec i).state = .disturbed →
        quoted ≠ (s.sec i).number →
        exec (.sectionReset [tag, number, mode, quoted]) s =
          s.refusedWith tag 0x14 .stale [(s.sec i).number]) ∧
      ((s.sectionCfg i).present = true → (s.sec i).state = .disturbed →
        quoted = (s.sec i).number →
        (∀ h, (s.sectionCfg i).names h = true → (s.head h).state ≠ .inService →
          (∀ g, g < h → (s.sectionCfg i).names g = true → (s.head g).state = .inService) →
          exec (.sectionReset [tag, number, mode, quoted]) s =
            s.refusedWith tag 0x14 .headsNotReady
              [octetOf h.val, codeHeadState (s.head h).state]) ∧
        ((∀ h, (s.sectionCfg i).names h = true → (s.head h).state = .inService) →
          (mode = 1 →
            exec (.sectionReset [tag, number, mode, quoted]) s =
              s.answeredAfter
                ((s.toPart.setSec i { s.sec i with state := .restoring, tally := 0 }).setReport
                  (s.report.mark i))
                tag 0x14 .done [octetOf i.val, codeSectionState .restoring, (s.sec i).number]) ∧
          (mode = 2 → (s.sectionCfg i).directReset = false →
            exec (.sectionReset [tag, number, mode, quoted]) s =
              s.refusedWith tag 0x14 .notPermitted []) ∧
          (mode = 2 → (s.sectionCfg i).directReset = true →
            exec (.sectionReset [tag, number, mode, quoted]) s =
              s.answeredAfter
                ((s.toPart.setSec i { s.sec i with state := .clear }).setReport (s.report.mark i))
                tag 0x14 .done [octetOf i.val, codeSectionState .clear, (s.sec i).number]))))

/-! ## Requests of the head supervisor and the head links -/

/-- R48 and R49: HEAD RELEASE takes a present FAILED head to ABSENT with no baseline and offers HEAD_STATE;
HEAD ADOPT writes a learned identity into the staging record and sets staging to EDITING. Each says RANGE
or STATE where the rule does, and does nothing else. -/
def Obligations.HeadReleaseAndAdopt : Prop :=
  ∀ (s : State) (tag number : Octet), s.hasRoom →
    (32 ≤ number.toNat →
      exec (.headRelease [tag, number]) s = s.refusedWith tag 0x16 .range [] ∧
      exec (.headAdopt [tag, number]) s = s.refusedWith tag 0x17 .range []) ∧
    (∀ h : HeadId, number.toNat = h.val →
      ((s.headCfg h).present = false →
        exec (.headRelease [tag, number]) s = s.refusedWith tag 0x16 .range []) ∧
      ((s.headCfg h).present = true → (s.head h).state ≠ .failed →
        exec (.headRelease [tag, number]) s = s.refusedWith tag 0x16 .state []) ∧
      ((s.headCfg h).present = true → (s.head h).state = .failed →
        exec (.headRelease [tag, number]) s =
          s.answeredAfter
            ((s.toPart.setHead h { s.head h with state := .absent, baseline := none }).setReport
              (s.report.offer (.headState h .absent (s.head h).lastCause)))
            tag 0x16 .done []) ∧
      ((s.head h).learned = none →
        exec (.headAdopt [tag, number]) s = s.refusedWith tag 0x17 .state []) ∧
      (∀ identity, (s.head h).learned = some identity →
        exec (.headAdopt [tag, number]) s =
          s.answeredAfter
            { s.toPart with
              tables := { s.tables with
                staging := { s.tables.staging with
                  heads := s.tables.staging.heads.set h.val
                    { s.tables.staging.heads[h] with expected := identity } h.isLt }
                stagingState := .editing } }
            tag 0x17 .done []))

/-- R63: HEAD RELAY to a logical head (form 1) or to all heads of a link (form 2), its four checks in their
order, and the command queued in stage WAITING with the tag counter's value. -/
def Obligations.HeadRelayIsJudged : Prop :=
  ∀ (s : State) (tag number code : Octet), s.hasRoom → (code = 1 ∨ code = 2) →
    (32 ≤ number.toNat →
      exec (.headRelay [tag, 1, number, code]) s = s.refusedWith tag 0x19 .range []) ∧
    (∀ h : HeadId, number.toNat = h.val → (s.headCfg h).present = false →
      exec (.headRelay [tag, 1, number, code]) s = s.refusedWith tag 0x19 .range []) ∧
    (4 ≤ number.toNat →
      exec (.headRelay [tag, 2, number, code]) s = s.refusedWith tag 0x19 .range []) ∧
    (∀ l : LinkId, number.toNat = l.val → s.activeTable.global.enabled[l] = false →
      exec (.headRelay [tag, 2, number, code]) s = s.refusedWith tag 0x19 .range []) ∧
    (∀ (form : Octet) (l : LinkId) (target : RelayTarget) (station : Octet),
      (form = 1 ∧ ∃ h : HeadId, number.toNat = h.val ∧ (s.headCfg h).present = true ∧
          (s.headCfg h).link.toNat = l.val ∧ target = .head h ∧ station = (s.headCfg h).station) ∨
        (form = 2 ∧ number.toNat = l.val ∧ s.activeTable.global.enabled[l] = true ∧
          target = .broadcast ∧ station = 0) →
      ∀ reached : Prop,
      (reached ↔ code = 1 ∧ ((∃ h, target = .head h ∧ (s.head h).state = .inService) ∨
        target = .broadcast ∧ ∃ h, (s.headCfg h).present = true ∧
          (s.headCfg h).link.toNat = l.val ∧ (s.head h).state = .inService)) →
      ((s.link l).state ≠ .locked →
        exec (.headRelay [tag, form, number, code]) s = s.refusedWith tag 0x19 .state []) ∧
      ((s.link l).state = .locked → reached →
        exec (.headRelay [tag, form, number, code]) s = s.refusedWith tag 0x19 .state []) ∧
      ((s.link l).state = .locked → ¬ reached → 2 ≤ (s.link l).queue.length →
        exec (.headRelay [tag, form, number, code]) s = s.refusedWith tag 0x19 .busy []) ∧
      ((s.link l).state = .locked → ¬ reached → (s.link l).queue.length < 2 →
        exec (.headRelay [tag, form, number, code]) s =
          s.answeredAfter
            (s.toPart.setLink l { s.link l with
              queue := (s.link l).queue ++
                [{ target := target, station := station
                   code := if code = 1 then .restart else .healthRequest
                   tag := (s.link l).tag, stage := .waiting }]
              tag := (s.link l).tag + 1 })
            tag 0x19 .accepted [octetOf l.val, (s.link l).tag.setWidth 8]))

/-! ## Requests of the table manager -/

/-- R128, R127 and R166: TABLE WRITE replaces the staging record under its key whole and sets staging to
EDITING, whatever the field values; a record that is no encoding of its kind is refused FORMAT, and then a
number outside its kind's range RANGE. Nothing else changes. -/
def Obligations.TableWriteReplacesARecord : Prop :=
  ∀ (s : State) (tag number : Octet) (octets : List Octet), s.hasRoom → octets.length ≤ 31 →
    (decodeGlobal octets = none →
      exec (.tableWrite (tag :: 1 :: number :: octets)) s = s.refusedWith tag 0x1A .format []) ∧
    (decodeHead octets = none →
      exec (.tableWrite (tag :: 2 :: number :: octets)) s = s.refusedWith tag 0x1A .format []) ∧
    (decodeSection octets = none →
      exec (.tableWrite (tag :: 3 :: number :: octets)) s = s.refusedWith tag 0x1A .format []) ∧
    (∀ g, decodeGlobal octets = some g →
      (number ≠ 0 →
        exec (.tableWrite (tag :: 1 :: number :: octets)) s = s.refusedWith tag 0x1A .range []) ∧
      (number = 0 →
        exec (.tableWrite (tag :: 1 :: number :: octets)) s =
          s.answeredAfter
            { s.toPart with
              tables := { s.tables with
                staging := { s.tables.staging with global := g }, stagingState := .editing } }
            tag 0x1A .done [])) ∧
    (∀ r, decodeHead octets = some r →
      (32 ≤ number.toNat →
        exec (.tableWrite (tag :: 2 :: number :: octets)) s = s.refusedWith tag 0x1A .range []) ∧
      (∀ h : HeadId, number.toNat = h.val →
        exec (.tableWrite (tag :: 2 :: number :: octets)) s =
          s.answeredAfter
            { s.toPart with
              tables := { s.tables with
                staging := { s.tables.staging with
                  heads := s.tables.staging.heads.set h.val r h.isLt }
                stagingState := .editing } }
            tag 0x1A .done [])) ∧
    (∀ r, decodeSection octets = some r →
      (24 ≤ number.toNat →
        exec (.tableWrite (tag :: 3 :: number :: octets)) s = s.refusedWith tag 0x1A .range []) ∧
      (∀ i : SectionId, number.toNat = i.val →
        exec (.tableWrite (tag :: 3 :: number :: octets)) s =
          s.answeredAfter
            { s.toPart with
              tables := { s.tables with
                staging := { s.tables.staging with
                  sections := s.tables.staging.sections.set i.val r i.isLt }
                stagingState := .editing } }
            tag 0x1A .done []))

/-- R129 and R130: TABLE READ of ACTIVE (copy 1) and STAGING (copy 2) returns the record of a kind and
number with the fields the rule gives, and changes nothing; out of range it is refused RANGE, and then,
of ACTIVE with no active table, STATE. TABLE COPY makes staging a CHECKED copy of the active table, and
with no active table is refused STATE. -/
def Obligations.TableReadAndCopy : Prop :=
  ∀ (s : State) (tag copy kind number : Octet), s.hasRoom → (copy = 1 ∨ copy = 2) →
    (kind = 1 ∧ number ≠ 0 ∨ kind = 2 ∧ 32 ≤ number.toNat ∨ kind = 3 ∧ 24 ≤ number.toNat →
      exec (.tableRead [tag, copy, kind, number]) s = s.refusedWith tag 0x1B .range []) ∧
    (∀ record : Table → List Octet,
      (kind = 1 ∧ number = 0 ∧ (∀ t, record t = encodeGlobal t.global) ∨
        (kind = 2 ∧ ∃ h : HeadId, number.toNat = h.val ∧ ∀ t, record t = encodeHead t.heads[h]) ∨
        (kind = 3 ∧ ∃ i : SectionId, number.toNat = i.val ∧
          ∀ t, record t = encodeSection t.sections[i])) →
      (copy = 1 → s.tables.active = none →
        exec (.tableRead [tag, copy, kind, number]) s = s.refusedWith tag 0x1B .state []) ∧
      (∀ a, copy = 1 → s.tables.active = some a →
        exec (.tableRead [tag, copy, kind, number]) s =
          s.doneWith tag 0x1B (record a.table ++ octets16 a.crc)) ∧
      (copy = 2 →
        exec (.tableRead [tag, copy, kind, number]) s =
          s.doneWith tag 0x1B (record s.tables.staging ++
            (match s.tables.stagingState with
              | .editing => [1, 0, 0, 0]
              | .checked crc => [2, 1] ++ octets16 crc) ++
            (match s.tables.lastCheck with
              | .none => [0, 0, 0, 0]
              | .pass crc => [1] ++ octets16 crc ++ [0]
              | .fail f => [2, codeCheck f.code, codeRecordKind f.kind, octetOf f.number])))) ∧
    (s.tables.active = none →
      exec (.tableCopy [tag]) s = s.refusedWith tag 0x1C .state []) ∧
    (∀ a, s.tables.active = some a →
      exec (.tableCopy [tag]) s =
        s.answeredAfter
          { s.toPart with
            tables := { s.tables with
              staging := a.table, stagingState := .checked a.crc, lastCheck := .pass a.crc } }
          tag 0x1C .done (octets16 a.crc))

/-- R131 and R76 to R81: TABLE CHECK of a staging table that passes C1 to C8 sets it CHECKED with the CRC of
its contents; of one that fails, EDITING, with the first failure kept and returned. The checks are taken in
order, each only where those before it pass, and each names the first record that fails it: C1 the fields
out of range, over GLOBAL, then the present heads, then the present sections; C2 a boundary list of none or
more than 4; C3 an entry whose head is not present; C4 a head twice in one list; C5 a present head in more
than two entries of present sections, or in two of one direction; C6 a present head on the link and station
of a present head of lower number; C7 a present head on a link that is not enabled; C8, at GLOBAL 0, a table
with no section present. -/
def Obligations.TableCheckJudgesStaging : Prop :=
  (∀ (s : State) (tag : Octet), s.hasRoom →
    (s.tables.staging.firstFailure = none →
      exec (.tableCheck [tag]) s =
        s.answeredAfter
          { s.toPart with
            tables := { s.tables with
              stagingState := .checked (crc16 (encodeTable s.tables.staging))
              lastCheck := .pass (crc16 (encodeTable s.tables.staging)) } }
          tag 0x1D .done (octets16 (crc16 (encodeTable s.tables.staging)))) ∧
    (∀ f, s.tables.staging.firstFailure = some f →
      exec (.tableCheck [tag]) s =
        s.answeredAfter
          { s.toPart with
            tables := { s.tables with stagingState := .editing, lastCheck := .fail f } }
          tag 0x1D (.refused .notChecked)
          [codeCheck f.code, codeRecordKind f.kind, octetOf f.number])) ∧
  (∀ (t : Table) (before after : List (Option CheckFailure)) (f : CheckFailure),
    [t.checkC1, t.checkC2, t.checkC3, t.checkC4, t.checkC5, t.checkC6, t.checkC7, t.checkC8] =
      before ++ some f :: after → (∀ c ∈ before, c = none) → t.firstFailure = some f) ∧
  (∀ t : Table, t.firstFailure = none ↔
    t.checkC1 = none ∧ t.checkC2 = none ∧ t.checkC3 = none ∧ t.checkC4 = none ∧
      t.checkC5 = none ∧ t.checkC6 = none ∧ t.checkC7 = none ∧ t.checkC8 = none) ∧
  (∀ (t : Table) (badHead : HeadId → Prop) (badSection : SectionId → Prop),
    (∀ h, badHead h ↔ (t.headCfg h).present = true ∧ ¬ (t.headCfg h).fieldsInRange) →
    (∀ i, badSection i ↔ (t.sectionCfg i).present = true ∧ ¬ (t.sectionCfg i).fieldsInRange) →
    (¬ t.global.fieldsInRange →
      t.checkC1 = some { code := .c1, kind := .global, number := 0 }) ∧
    (t.global.fieldsInRange → (∃ h, badHead h) → findsFirst .c1 .head badHead t.checkC1) ∧
    (t.global.fieldsInRange → (∀ h, ¬ badHead h) →
      findsFirst .c1 .sectionRecord badSection t.checkC1)) ∧
  (∀ t : Table,
    findsFirst .c2 .sectionRecord (fun i => (t.sectionCfg i).present = true ∧
      ((t.sectionCfg i).boundary = [] ∨ 4 < (t.sectionCfg i).boundary.length)) t.checkC2 ∧
    findsFirst .c3 .sectionRecord (fun i => (t.sectionCfg i).present = true ∧
      ∃ e ∈ (t.sectionCfg i).boundary,
        ∀ h : HeadId, h.val = e.head.toNat → (t.headCfg h).present = false) t.checkC3 ∧
    findsFirst .c4 .sectionRecord (fun i => (t.sectionCfg i).present = true ∧
      ¬ ((t.sectionCfg i).boundary.map fun e => e.head).Nodup) t.checkC4 ∧
    (∀ entries : HeadId → List Octet,
      (∀ h, entries h = (List.finRange 24).flatMap fun i =>
        if (t.sectionCfg i).present then
          ((t.sectionCfg i).boundary.filter fun e => decide (e.head.toNat = h.val)).map
            fun e => e.inward
        else []) →
      findsFirst .c5 .head (fun h => (t.headCfg h).present = true ∧
        (2 < (entries h).length ∨ ∃ direction, entries h = [direction, direction])) t.checkC5) ∧
    findsFirst .c6 .head (fun h => (t.headCfg h).present = true ∧
      ∃ g, g < h ∧ (t.headCfg g).present = true ∧ (t.headCfg g).link = (t.headCfg h).link ∧
        (t.headCfg g).station = (t.headCfg h).station) t.checkC6 ∧
    findsFirst .c7 .head (fun h => (t.headCfg h).present = true ∧
      ∀ l : LinkId, l.val = (t.headCfg h).link.toNat → t.global.enabled[l] = false) t.checkC7 ∧
    ((∃ i, (t.sectionCfg i).present = true) → t.checkC8 = none) ∧
    ((∀ i, (t.sectionCfg i).present = false) →
      t.checkC8 = some { code := .c8, kind := .global, number := 0 }))

/-- A head that an activation remaps or removes (R134). -/
def activationClears (old new : Table) (h : HeadId) : Prop :=
  (new.headCfg h).present = true ∧
      ((old.headCfg h).present = false ∨ (old.headCfg h).link ≠ (new.headCfg h).link ∨
        (old.headCfg h).station ≠ (new.headCfg h).station ∨
        (old.headCfg h).expected ≠ (new.headCfg h).expected) ∨
    (old.headCfg h).present = true ∧ (new.headCfg h).present = false

/-- A section present in both tables that an activation finds changed (R135). -/
def activationChanges (old new : Table) (i : SectionId) : Prop :=
  (old.sectionCfg i).present = true ∧ (new.sectionCfg i).present = true ∧
    ((old.sectionCfg i).boundary ≠ (new.sectionCfg i).boundary ∨
      (old.sectionCfg i).countLimit ≠ (new.sectionCfg i).countLimit ∨
      ∃ h, (new.sectionCfg i).names h = true ∧ (new.headCfg h).present = true ∧
        activationClears old new h)

/-- A relay command of a link that an activation cancels (R136). -/
def activationCancels (old new : Table) (l : LinkId) (c : RelayCommand) : Prop :=
  old.global.enabled[l] = true ∧ new.global.enabled[l] = false ∨
    ∃ h, c.target = .head h ∧ activationClears old new h

open Classical in
/-- R132 to R138, with R45, R17, R58, R105 and R106: TABLE ACTIVATE is refused NOT_CHECKED of a staging
table in EDITING, and CRC_MISMATCH of another CRC than the staging CRC. Accepted, it makes the staging
contents the active table; clears the heads and decoders that are remapped or removed; cancels their relay
commands and those of a disabled link; disturbs the changed and new sections and removes the removed ones,
marking each; takes links to SEARCH or OFF; and in UNCONFIGURED takes the evaluator to HALTED and starts
the report cycle. It offers RELAY_RESULT CANCELLED for each command and then TABLE_ACTIVATED. Nothing else
changes. -/
def Obligations.TableActivateAppliesTheDelta : Prop :=
  ∀ (s : State) (tag high low : Octet), s.hasRoom →
    (s.tables.stagingState = .editing →
      exec (.tableActivate [tag, high, low]) s = s.refusedWith tag 0x1E .notChecked []) ∧
    (∀ crc, s.tables.stagingState = .checked crc → high ++ low ≠ crc →
      exec (.tableActivate [tag, high, low]) s = s.refusedWith tag 0x1E .crcMismatch []) ∧
    (∀ (crc : Crc) (old new : Table) (added : SectionId → Prop) (disturbed : Nat),
      s.tables.stagingState = .checked crc → high ++ low = crc →
      old = s.activeTable → new = s.tables.staging →
      (∀ i, added i ↔ (old.sectionCfg i).present = false ∧ (new.sectionCfg i).present = true) →
      disturbed = ((List.finRange 24).filter fun i =>
        decide (activationChanges old new i ∨ added i)).length →
      ∃ t : State, exec (.tableActivate [tag, high, low]) s = .next t.afterEvent ∧
        (∀ h, t.head h =
          if activationClears old new h then
            { HeadRec.reset with lastCause := (s.head h).lastCause }
          else s.head h) ∧
        (∀ h, t.decoder h =
          if activationClears old new h then DecoderRec.reset else s.decoder h) ∧
        (∀ i, t.sec i =
          if activationChanges old new i then
            { s.sec i with
              state := .disturbed, count := 0, confirm := .stopped, sweep := false
              cause := .reconfigured, number := (s.sec i).number + 1
              latch := (s.sec i).latch || decide ((s.sec i).state = .clear) }
          else if added i then
            { SectionRec.reset with state := .disturbed, number := 1, cause := .reconfigured }
          else if (old.sectionCfg i).present = true ∧ (new.sectionCfg i).present = false then
            { s.sec i with
              state := .absent, count := 0, sweep := false, tally := 0, latch := false
              confirm := .stopped }
          else s.sec i) ∧
        (∀ l, t.link l = { s.link l with
          mode :=
            if old.global.enabled[l] = false ∧ new.global.enabled[l] = true then .search none
            else if old.global.enabled[l] = true ∧ new.global.enabled[l] = false then .off
            else (s.link l).mode
          run := if old.global.enabled[l] = new.global.enabled[l] then (s.link l).run else 0
          queue := (s.link l).queue.filter fun c => decide (¬ activationCancels old new l c)
          timer :=
            if (old.global.enabled[l] = true ∧ new.global.enabled[l] = false) ∨
                ∃ c rest, (s.link l).queue = c :: rest ∧ activationCancels old new l c then .stopped
            else (s.link l).timer }) ∧
        t.report =
          { (((List.finRange 4).flatMap fun l =>
                ((s.link l).queue.filter fun c => decide (activationCancels old new l c)).map fun c =>
                  Notice.relayResult l c.target c.station c.code c.tag .cancelled) ++
              [Notice.tableActivated crc disturbed]).foldl ReportUnit.offer s.report with
            queue := s.report.queue ++ (List.finRange 24).filter fun i =>
              decide ((activationChanges old new i ∨ added i ∨
                (old.sectionCfg i).present = true ∧ (new.sectionCfg i).present = false) ∧
                i ∉ s.report.queue)
            cycleTimer :=
              if s.evaluator = .unconfigured then .running new.global.reportCycle.toNat
              else s.report.cycleTimer } ∧
        t = { s with
          heads := t.heads
          decoders := t.decoders
          sections := t.sections
          links := t.links
          report := t.report
          evaluator := if s.evaluator = .unconfigured then .halted else s.evaluator
          tables := { s.tables with active := some { table := new, crc := crc } }
          count := s.answered tag 0x1E .done (octets16 crc ++ [octetOf disturbed]) })

/-! ## The image store -/

/-- R159 to R162: the checks of STORE, COMMISSION and ERASE STORE in their order, and the acceptance of
each: marker WRITING, image state INVALID, the operation in flight, the store timer at 250 ms, and the
copy of the active table that a STORE writes. Nothing else changes. (That a STORE in UNCONFIGURED is refused
STATE also while an operation is in flight, by R160's order and not BUSY by R159, is log 25's: DESIGN CHOICE,
the model's.) -/
def Obligations.StoreOperationsAreAccepted : Prop :=
  ∀ (s : State) (tag : Octet) (accepted : StoreOp → ImageStore), s.hasRoom →
    (∀ op, accepted op =
      { image := { s.image.image with marker := .writing }, state := .invalid, op := op
        timer := .running 250 }) →
    (s.evaluator = .unconfigured →
      exec (.store [tag]) s = s.refusedWith tag 0x1F .state []) ∧
    (s.evaluator ≠ .unconfigured → s.image.op ≠ .none →
      exec (.store [tag]) s = s.refusedWith tag 0x1F .busy []) ∧
    (s.evaluator ≠ .unconfigured → s.image.op = .none → s.image.state = .validCommissioned →
      exec (.store [tag]) s = s.refusedWith tag 0x1F .commissioned []) ∧
    (∀ a, s.evaluator ≠ .unconfigured → s.image.op = .none → s.image.state ≠ .validCommissioned →
      s.tables.active = some a →
      exec (.store [tag]) s =
        s.answeredAfter { s.toPart with image := accepted (.store a.table a.crc) } tag 0x1F
          .accepted []) ∧
    (s.image.op ≠ .none →
      exec (.commission [tag]) s = s.refusedWith tag 0x20 .busy [] ∧
      exec (.eraseStore [tag]) s = s.refusedWith tag 0x21 .busy []) ∧
    (s.image.op = .none → s.image.state ≠ .valid →
      exec (.commission [tag]) s = s.refusedWith tag 0x20 .state []) ∧
    (∀ a b, s.image.op = .none → s.image.state = .valid → s.tables.active = some a →
      s.image.image.body = b →
      (b.crc ≠ a.crc → exec (.commission [tag]) s = s.refusedWith tag 0x20 .crcMismatch []) ∧
      (b.crc = a.crc →
        exec (.commission [tag]) s =
          s.answeredAfter { s.toPart with image := accepted .commission } tag 0x20
            .accepted [])) ∧
    (s.image.op = .none →
      exec (.eraseStore [tag]) s =
        s.answeredAfter { s.toPart with image := accepted .erase } tag 0x21 .accepted [])

/-- R159 to R162: at its write completion a STORE or COMMISSION whose stored table reads back with the CRC
it should have ends DONE with its closing marker over the table written, and otherwise VERIFY_FAIL with
marker WRITING; an ERASE ends DONE with marker BLANK. At its store timer's expiry any of them ends TIMEOUT
with the image as it stands. STORE_RESULT is offered at each end. With none in flight a write completion is
ignored, and a timer that is stopped has no expiry (R1). (What the image's body holds after an equal CRC, a
VERIFY_FAIL and an ERASE is log 13's, and a late completion log 23's: DESIGN CHOICE, the model's. `none`
reads back as written.) -/
def Obligations.StoreOperationsEnd : Prop :=
  ∀ (s : State) (readBack : Option Table), s.awake →
    (s.image.op = .none → exec (.writeCompletion readBack) s = .next s.afterEvent) ∧
    (∀ (kind : StoreKind) (written read : Table) (crc : Crc) (marker : Marker)
      (state : ImageState),
      (s.image.op = .store written crc ∧ kind = .store ∧ marker = .valid ∧ state = .valid ∨
        s.image.op = .commission ∧ s.image.image.body = { table := written, crc := crc } ∧
          kind = .commission ∧ marker = .commissioned ∧ state = .validCommissioned) →
      read = readBack.getD written →
      (crc16 (encodeTable read) = crc →
        exec (.writeCompletion readBack) s = .next (State.afterEvent { s with
          image :=
            { image := { marker := marker, body := { table := written, crc := crc } }
              state := state, op := .none, timer := .stopped }
          report := s.report.offer (.storeResult kind .done state (some crc)) })) ∧
      (crc16 (encodeTable read) ≠ crc →
        exec (.writeCompletion readBack) s = .next (State.afterEvent { s with
          image :=
            { image := { marker := .writing, body := { table := read, crc := crc } }
              state := .invalid, op := .none, timer := .stopped }
          report := s.report.offer (.storeResult kind .verifyFail .invalid none) }))) ∧
    (s.image.op = .erase →
      exec (.writeCompletion readBack) s = .next (State.afterEvent { s with
        image :=
          { image := { s.image.image with marker := .blank }
            state := .empty, op := .none, timer := .stopped }
        report := s.report.offer (.storeResult .erase .done .empty none) })) ∧
    (s.image.timer = .stopped → exec .storeTimerExpiry s = .next s.afterEvent) ∧
    (∀ kind : StoreKind, s.image.timer ≠ .stopped →
      ((∃ t crc, s.image.op = .store t crc) ∧ kind = .store ∨
        s.image.op = .commission ∧ kind = .commission ∨ s.image.op = .erase ∧ kind = .erase) →
      exec .storeTimerExpiry s = .next (State.afterEvent { s with
        image := { image := s.image.image, state := .invalid, op := .none, timer := .stopped }
        report := s.report.offer (.storeResult kind .timeout .invalid none) }))

/-! ## The report unit -/

/-- R156 and R157: HOLD holds the line and starts the hold-limit timer anew with the limit in force, 5 000 ms
where there is no table. PROCEED releases a held line and stops the timer, and is refused STATE otherwise.
The timer's expiry releases the line and sets the hold-expired flag, or its set-again mark while a telegram
that carries the flag set is on the line. Nothing else changes. -/
def Obligations.HoldingTheLine : Prop :=
  (∀ (s : State) (tag : Octet), s.hasRoom →
    (∀ limit,
      (s.tables.active = none ∧ limit = 5000 ∨
        ∃ a, s.tables.active = some a ∧ limit = a.table.global.holdLimit.toNat) →
      exec (.hold [tag]) s =
        s.answeredAfter
          { s.toPart with
            report := { s.report with held := true, holdTimer := .running limit } }
          tag 0x22 .done []) ∧
    (s.report.held = true →
      exec (.proceed [tag]) s =
        s.answeredAfter
          { s.toPart with report := { s.report with held := false, holdTimer := .stopped } }
          tag 0x23 .done []) ∧
    (s.report.held = false →
      exec (.proceed [tag]) s = s.refusedWith tag 0x23 .state [])) ∧
  (∀ s : State, s.awake →
    (s.report.holdTimer = .stopped → exec .holdLimitExpiry s = .next s.afterEvent) ∧
    (s.report.holdTimer ≠ .stopped →
      ((∃ t, s.report.transmitter = some t ∧ t.notedHoldExpired = true) →
        exec .holdLimitExpiry s = .next (State.afterEvent { s with
          report := { s.report with
            held := false, holdTimer := .stopped, holdExpiredAgain := true } })) ∧
      ((∀ t, s.report.transmitter = some t → t.notedHoldExpired = false) →
        exec .holdLimitExpiry s = .next (State.afterEvent { s with
          report := { s.report with
            held := false, holdTimer := .stopped, holdExpired := true } }))))

/-- R155 with R142, R149, R151, R152, R154, R166 and R167: an idle transmitter starts the front reply; else,
on a line not held, a report of up to 4 entries, whose sections' latches it clears; else a notice telegram
of up to 3 notices; else the front mirror. A busy transmitter, and one with nothing to send, starts
nothing. No step leaves an idle transmitter with something that may start: it starts at once, at the end of
the event. A report entry has 7 octets and a notice entry 8, laid out field by field. (The relay command
code of RELAY_RESULT, coded from 1, is log 12's: DEDUCED, the model's reading.) -/
def Obligations.TransmitterChooses : Prop :=
  (∀ (s : State) (own flags evaluator : Octet), s.awake → own = s.pins.address.setWidth 8 →
    flags = codeFlag s.report.overrun ||| (codeFlag s.report.holdExpired <<< 1) →
    evaluator = codeEvaluator s.evaluator →
    (s.report.transmitter ≠ none → exec .transmissionStart s = .next s) ∧
    (s.report.transmitter = none →
      (∀ r rest, s.count.replies = r :: rest →
        exec .transmissionStart s = .next { s with
          report := { s.report with
            transmitter := some
              { kind := .reply
                octets := telegram own 0x40 ([r.tag, r.kind] ++ codeOutcome r.outcome ++ r.items)
                notedOverrun := false, notedHoldExpired := false } } }) ∧
      (s.count.replies = [] → s.report.held = true → exec .transmissionStart s = .next s) ∧
      (s.count.replies = [] → s.report.held = false →
        (s.report.queue ≠ [] →
          ∃ t : State, exec .transmissionStart s = .next t ∧
            (∀ i, t.sec i =
              if i ∈ s.report.queue.take 4 then { s.sec i with latch := false } else s.sec i) ∧
            t = { s with
              sections := t.sections
              report := { s.report with
                queue := s.report.queue.drop 4
                transmitter := some
                  { kind := .report
                    octets := telegram own 0x41
                      ([evaluator, flags, octetOf s.report.notices.length] ++
                        (s.report.queue.take 4).flatMap fun i => reportEntry i (s.sec i))
                    notedOverrun := s.report.overrun
                    notedHoldExpired := s.report.holdExpired }
                overrunAgain := false
                holdExpiredAgain := false } }) ∧
        (s.report.queue = [] → s.report.notices ≠ [] →
          exec .transmissionStart s = .next { s with
            report := { s.report with
              notices := s.report.notices.drop 3
              transmitter := some
                { kind := .notice
                  octets := telegram own 0x42
                    ([evaluator, flags, octetOf (s.report.notices.drop 3).length] ++
                      (s.report.notices.take 3).flatMap noticeEntry)
                  notedOverrun := s.report.overrun
                  notedHoldExpired := s.report.holdExpired }
              overrunAgain := false
              holdExpiredAgain := false } }) ∧
        (∀ m rest, s.report.queue = [] → s.report.notices = [] → s.report.mirrors = m :: rest →
          exec .transmissionStart s = .next { s with
            report := { s.report with
              mirrors := rest
              transmitter := some
                { kind := .mirror
                  octets := telegram own 0x43 (octetOf m.link.val :: m.octets)
                  notedOverrun := false, notedHoldExpired := false } } }) ∧
        (s.report.queue = [] → s.report.notices = [] → s.report.mirrors = [] →
          exec .transmissionStart s = .next s)))) ∧
  (∀ s t : State, step s = .next t → t.awake → t.transmissionDue = false) ∧
  (∀ (i : SectionId) (r : SectionRec) (word : BitVec 16), word.getLsbD 15 = r.latch →
    word.extractLsb' 12 3 = (codeSectionState r.state).setWidth 3 →
    word.extractLsb' 0 12 = BitVec.ofNat 12 r.count →
    reportEntry i r =
      [BitVec.ofNat 8 i.val, word.extractLsb' 8 8, word.extractLsb' 0 8, r.number] ++
        (if r.state = .disturbed then
          match r.cause with
          | .none => [0, 0, 0]
          | .startUp => [1, 0, 0]
          | .halt => [2, 0, 0]
          | .headFailed h cause => [3, BitVec.ofNat 8 h.val, codeHeadCause cause]
          | .underflow => [4, 0, 0]
          | .overflow => [5, 0, 0]
          | .reconfigured => [6, 0, 0]
        else [0, 0, 0])) ∧
  (∀ n : Notice, noticeEntry n =
    match n with
    | .headState h state cause =>
      [1, BitVec.ofNat 8 h.val, codeHeadState state, codeHeadCause cause, 0, 0, 0, 0]
    | .headRocking h side => [2, BitVec.ofNat 8 h.val, codeSide side, 0, 0, 0, 0, 0]
    | .headTemperature h alarm => [3, BitVec.ofNat 8 h.val, codeFlag alarm, 0, 0, 0, 0, 0]
    | .identityLearned h identity =>
      [4, BitVec.ofNat 8 h.val, identity.extractLsb' 16 8, identity.extractLsb' 8 8,
        identity.extractLsb' 0 8, 0, 0, 0]
    | .gapBridged h k => [5, BitVec.ofNat 8 h.val, BitVec.ofNat 8 k, 0, 0, 0, 0, 0]
    | .linkState l state polarity =>
      [6, BitVec.ofNat 8 l.val, codeLinkState state, codePolarity (some polarity), 0, 0, 0, 0]
    | .relayResult l (.head h) station code tag result =>
      [7, BitVec.ofNat 8 l.val, 1, BitVec.ofNat 8 h.val, station, codeRelayCode code,
        tag.setWidth 8, codeRelayResult result]
    | .relayResult l .broadcast station code tag result =>
      [7, BitVec.ofNat 8 l.val, 2, 0, station, codeRelayCode code, tag.setWidth 8,
        codeRelayResult result]
    | .tableActivated crc disturbed =>
      [8, crc.extractLsb' 8 8, crc.extractLsb' 0 8, BitVec.ofNat 8 disturbed, 0, 0, 0, 0]
    | .storeResult op result state none =>
      [9, codeStoreKind op, codeStoreResult result, codeImageState state, 0, 0, 0, 0]
    | .storeResult op result state (some crc) =>
      [9, codeStoreKind op, codeStoreResult result, codeImageState state, 1,
        crc.extractLsb' 8 8, crc.extractLsb' 0 8, 0])

/-- R145, R152 and R155: at the last octet of a telegram a sent reply leaves the buffer, each flag it
carried set is cleared and set again where its mark is set, and the transmitter, idle again, chooses as
`TransmitterChooses` says. With nothing on the line there is no last octet, and the command changes nothing
(log 6, DEDUCED, the model's reading). -/
def Obligations.TransmissionEnds : Prop :=
  ∀ s : State, s.awake →
    (s.report.transmitter = none → exec .transmissionEnd s = .next s.afterEvent) ∧
    (∀ t settled, s.report.transmitter = some t →
      settled = { s with
        count := { s.count with
          replies := if t.kind = .reply then s.count.replies.tail else s.count.replies }
        report := { s.report with
          transmitter := none
          overrun := if t.notedOverrun then s.report.overrunAgain else s.report.overrun
          overrunAgain := if t.notedOverrun then false else s.report.overrunAgain
          holdExpired := if t.notedHoldExpired then s.report.holdExpiredAgain
            else s.report.holdExpired
          holdExpiredAgain := if t.notedHoldExpired then false
            else s.report.holdExpiredAgain } } →
      exec .transmissionEnd s = exec .transmissionStart settled ∧
        ∃ u : State, exec .transmissionStart settled = .next u)

/-- R154: an offered mirror joins a buffer of fewer than 4 at the back; one that finds 4 is discarded and
raises its link's mirrors-dropped count. A mirror telegram carries the front mirror, its link number and
its octets, and no header flags. -/
def Obligations.MirrorsAreBuffered : Prop :=
  (∀ (p : Part) (l : LinkId) (octets : List Octet),
    (p.report.mirrors.length < 4 →
      p.offerMirror l octets = { p with
        report := { p.report with
          mirrors := p.report.mirrors ++ [{ link := l, octets := octets }] } }) ∧
    (4 ≤ p.report.mirrors.length →
      p.offerMirror l octets = p.setLink l { p.link l with
        mirrorsDropped := min ((p.link l).mirrorsDropped + 1) 65535 })) ∧
  (∀ (p : Part) (m : Mirror) (rest : List Mirror), p.report.mirrors = m :: rest →
    p.sendMirror m rest = { p with
      report := { p.report with
        mirrors := rest
        transmitter := some
          { kind := .mirror
            octets := telegram (p.pins.address.setWidth 8) 0x43
              (octetOf m.link.val :: m.octets)
            notedOverrun := false, notedHoldExpired := false } } })

/-! ## Encodings -/

/-- R168 and R69: every table record, whatever values its fields hold, reads back from its encoding as it was
written, a section record with a boundary list of at most 4 entries; and octets that are the encoding of no
record of a kind (another length, a list count above 4, a spare bit set) read as none, since what reads as a
record is its encoding. The encoding of a table whose lists hold at most 4 is between 504 and 696 octets
long. -/
def Obligations.TableRecordsReadBackAsWritten : Prop :=
  (∀ g : GlobalRecord, decodeGlobal (encodeGlobal g) = some g) ∧
  (∀ r : HeadRecord, decodeHead (encodeHead r) = some r) ∧
  (∀ r : SectionRecord, r.boundary.length ≤ 4 → decodeSection (encodeSection r) = some r) ∧
  (∀ (octets : List Octet) (g : GlobalRecord), decodeGlobal octets = some g →
    encodeGlobal g = octets) ∧
  (∀ (octets : List Octet) (r : HeadRecord), decodeHead octets = some r → encodeHead r = octets) ∧
  (∀ (octets : List Octet) (r : SectionRecord), decodeSection octets = some r →
    r.boundary.length ≤ 4 ∧ encodeSection r = octets) ∧
  (∀ t : Table, (∀ i, (t.sectionCfg i).boundary.length ≤ 4) →
    504 ≤ (encodeTable t).length ∧ (encodeTable t).length ≤ 696)

/-! ## What every step keeps -/

/-- Laws 5, 6, 8 and 11, and R154: a step keeps the bounds of the reply buffer, the notice queue, the
mirror buffer and the relay queues, and queues no section twice. -/
def Obligations.StepsKeepQueuesBounded : Prop :=
  ∀ s t : State, s.toPart.QueuesBounded → step s = .next t → t.toPart.QueuesBounded

/-- R2 and R18: a step keeps the entry side NONE exactly at FREE, and the decoder of every head that is not
IN_SERVICE at FREE, NONE and rock count 0. -/
def Obligations.StepsKeepDecodersSound : Prop :=
  ∀ s t : State, s.toPart.SidesAgree → s.toPart.DecodersAtRest → step s = .next t →
    t.toPart.SidesAgree ∧ t.toPart.DecodersAtRest

/-- R25, R100, R156, R157 and R159: a step keeps the silence timers running exactly in ACQUIRING and
IN_SERVICE, the confirm timers exactly in CLEARING, the hold-limit timer exactly while the line is held,
and the store timer exactly while an operation is in flight, with the image INVALID and marked WRITING. -/
def Obligations.StepsKeepTimersSound : Prop :=
  ∀ s t : State, s.toPart.TimersSound → step s = .next t → t.toPart.TimersSound

/-- R62, R64 and R66: a step keeps the commands behind the front of a relay queue WAITING, and the relay
timer running exactly while the front command is AWAITING_ECHO. -/
def Obligations.StepsKeepRelaysSound : Prop :=
  ∀ s t : State, s.toPart.RelaysSound → step s = .next t → t.toPart.RelaysSound

/-- Law 3 (R89) with R88, R92 and R150: a step keeps every present section DISTURBED while the evaluator is
not RUNNING, the evaluator UNCONFIGURED and the report cycle stopped exactly while there is no active
table, and the sections ABSENT exactly while they are not present in it. -/
def Obligations.StepsKeepHaltedSectionsDisturbed : Prop :=
  ∀ s t : State, s.toPart.HaltedDisturbed → s.toPart.ConfiguredSound → step s = .next t →
    t.toPart.HaltedDisturbed ∧ t.toPart.ConfiguredSound

/-- Law 1 (R104): a step keeps every boundary head of a present section that is not DISTURBED in
IN_SERVICE. The premise that a CHECKED staging table passes its checks is itself kept
(`StepsKeepTablesSound`). -/
def Obligations.StepsKeepBoundariesInService : Prop :=
  ∀ s t : State, s.toPart.StagingSound → s.toPart.BoundariesInService → step s = .next t →
    t.toPart.BoundariesInService

/-- Law 2 (R99, R116): a step keeps the count of every present section at 0 in CLEAR, CLEARING and DISTURBED,
between 1 and its limit in OCCUPIED, and up to its limit in RESTORING, with the sweep flag set exactly in
RESTORING with a count above 0. The premise that the active table passes its checks is itself kept
(`StepsKeepTablesSound`). -/
def Obligations.StepsKeepCountsSound : Prop :=
  ∀ s t : State, s.toPart.ActiveSound → s.toPart.CountsSound → step s = .next t →
    t.toPart.CountsSound

/-- Law 9 (R44): a step keeps every IN_SERVICE head present in the active table and on a LOCKED link. The
premises that the active table and a CHECKED staging table pass their checks are themselves kept
(`StepsKeepTablesSound`). -/
def Obligations.StepsKeepHeadsOnLockedLinks : Prop :=
  ∀ s t : State, s.toPart.StagingSound → s.toPart.ActiveSound → s.toPart.HeadsOnLockedLinks →
    step s = .next t → t.toPart.HeadsOnLockedLinks

/-- R82: a step keeps the active table, a CHECKED staging table, and the tables that a STORE writes, that a
VALID or COMMISSIONED image holds and that a COMMISSION marks, among the tables that pass checks C1 to C8.
(That what reads back with an equal CRC is the table written is log 13's: DESIGN CHOICE, the model's.) -/
def Obligations.StepsKeepTablesSound : Prop :=
  ∀ s t : State, s.toPart.TablesSound → step s = .next t → t.toPart.TablesSound

/-- The machine right after reset is sound in every way that a step keeps. State.reset itself, a part whose
image was never written, is log 1's (DESIGN CHOICE, the model's), and R163 and R158 do not choose it. -/
def Obligations.ResetStateIsSound : Prop :=
  State.reset.toPart.QueuesBounded ∧ State.reset.toPart.SidesAgree ∧
    State.reset.toPart.DecodersAtRest ∧ State.reset.toPart.TimersSound ∧
    State.reset.toPart.RelaysSound ∧ State.reset.toPart.HaltedDisturbed ∧
    State.reset.toPart.ConfiguredSound ∧ State.reset.toPart.BoundariesInService ∧
    State.reset.toPart.CountsSound ∧ State.reset.toPart.HeadsOnLockedLinks ∧
    State.reset.toPart.TablesSound ∧ State.reset.toPart.CrcsSound ∧ State.reset.settled

/-- Law 10 (R159): a step leaves a part in VALID_COMMISSIONED in it, with its image as it is, or has accepted
an ERASE STORE. The premise that an image known as valid has its marker and a stored CRC that agrees is
itself kept by every step. (That the image state stands while a full reset lasts is log 22's: DESIGN CHOICE,
the model's.) -/
def Obligations.CommissionedImageIsChangedByEraseAlone : Prop :=
  (∀ s t : State, s.toPart.CrcsSound → step s = .next t → t.toPart.CrcsSound) ∧
  (∀ s t : State, s.toPart.StoreSound → s.toPart.CrcsSound → s.image.state = .validCommissioned →
    step s = .next t →
    t.image.image = s.image.image ∧ t.image.state = .validCommissioned ∨ t.image.op = .erase)

/-- Law 12 (R155): a step that leaves the line held, whether it was held before or a HOLD has just been
taken, has started no report, notice or mirror telegram: the transmitter keeps what it was sending, is
idle, or sends a reply. The premise, that an awake part has nothing that its idle transmitter may start, is
itself kept by every step (`TransmitterChooses`) and holds at reset (`ResetStateIsSound`). -/
def Obligations.HeldLineStartsOnlyReplies : Prop :=
  ∀ s t : State, (s.awake → s.transmissionDue = false) → step s = .next t → t.report.held = true →
    t.report.transmitter = s.report.transmitter ∨ t.report.transmitter = none ∨
      ∃ u, t.report.transmitter = some u ∧ u.kind = .reply
end

