-- ==== Sys2Proof/Laws/State.lean ====
section
/-! SUPPORT. One lemma per field per update of the part, true by rfl, so that no later proof unfolds a
record update; and the reads of a record after a write. -/

namespace Sys2Proof.Machine

/-! ### A record read after a write -/

@[simp] theorem Part.head_setHead (p : Part) (h : HeadId) (r : HeadRec) : (p.setHead h r).head h = r := by
  simp [Part.head, Part.setHead]

theorem Part.head_setHead_ne (p : Part) {g h : HeadId} (r : HeadRec) (ne : g ≠ h) :
    (p.setHead h r).head g = p.head g := by
  have : h.val ≠ g.val := fun e => ne (Fin.ext e.symm)
  simp [Part.head, Part.setHead, this]

theorem Part.head_setHead_eq (p : Part) (g h : HeadId) (r : HeadRec) :
    (p.setHead h r).head g = if g = h then r else p.head g := by
  by_cases e : g = h
  · subst e; simp
  · simp [e, Part.head_setHead_ne p r e]

@[simp] theorem Part.decoder_setDecoder (p : Part) (h : HeadId) (r : DecoderRec) :
    (p.setDecoder h r).decoder h = r := by
  simp [Part.decoder, Part.setDecoder]

theorem Part.decoder_setDecoder_ne (p : Part) {g h : HeadId} (r : DecoderRec) (ne : g ≠ h) :
    (p.setDecoder h r).decoder g = p.decoder g := by
  have : h.val ≠ g.val := fun e => ne (Fin.ext e.symm)
  simp [Part.decoder, Part.setDecoder, this]

theorem Part.decoder_setDecoder_eq (p : Part) (g h : HeadId) (r : DecoderRec) :
    (p.setDecoder h r).decoder g = if g = h then r else p.decoder g := by
  by_cases e : g = h
  · subst e; simp
  · simp [e, Part.decoder_setDecoder_ne p r e]

@[simp] theorem Part.sec_setSec (p : Part) (i : SectionId) (r : SectionRec) : (p.setSec i r).sec i = r := by
  simp [Part.sec, Part.setSec]

theorem Part.sec_setSec_ne (p : Part) {j i : SectionId} (r : SectionRec) (ne : j ≠ i) :
    (p.setSec i r).sec j = p.sec j := by
  have : i.val ≠ j.val := fun e => ne (Fin.ext e.symm)
  simp [Part.sec, Part.setSec, this]

theorem Part.sec_setSec_eq (p : Part) (j i : SectionId) (r : SectionRec) :
    (p.setSec i r).sec j = if j = i then r else p.sec j := by
  by_cases e : j = i
  · subst e; simp
  · simp [e, Part.sec_setSec_ne p r e]

@[simp] theorem Part.link_setLink (p : Part) (l : LinkId) (r : LinkRec) : (p.setLink l r).link l = r := by
  simp [Part.link, Part.setLink]

theorem Part.link_setLink_ne (p : Part) {m l : LinkId} (r : LinkRec) (ne : m ≠ l) :
    (p.setLink l r).link m = p.link m := by
  have : l.val ≠ m.val := fun e => ne (Fin.ext e.symm)
  simp [Part.link, Part.setLink, this]

theorem Part.link_setLink_eq (p : Part) (m l : LinkId) (r : LinkRec) :
    (p.setLink l r).link m = if m = l then r else p.link m := by
  by_cases e : m = l
  · subst e; simp
  · simp [e, Part.link_setLink_ne p r e]

/-! ### setHead -/

@[simp] theorem Part.setHead_pins (p : Part) (h : HeadId) (r : HeadRec) :
    (p.setHead h r).pins = p.pins := rfl

@[simp] theorem Part.setHead_links (p : Part) (h : HeadId) (r : HeadRec) :
    (p.setHead h r).links = p.links := rfl

@[simp] theorem Part.setHead_heads (p : Part) (h : HeadId) (r : HeadRec) :
    (p.setHead h r).heads = p.heads.set h.val r h.isLt := rfl

@[simp] theorem Part.setHead_decoders (p : Part) (h : HeadId) (r : HeadRec) :
    (p.setHead h r).decoders = p.decoders := rfl

@[simp] theorem Part.setHead_evaluator (p : Part) (h : HeadId) (r : HeadRec) :
    (p.setHead h r).evaluator = p.evaluator := rfl

@[simp] theorem Part.setHead_sections (p : Part) (h : HeadId) (r : HeadRec) :
    (p.setHead h r).sections = p.sections := rfl

@[simp] theorem Part.setHead_tables (p : Part) (h : HeadId) (r : HeadRec) :
    (p.setHead h r).tables = p.tables := rfl

@[simp] theorem Part.setHead_count (p : Part) (h : HeadId) (r : HeadRec) :
    (p.setHead h r).count = p.count := rfl

@[simp] theorem Part.setHead_report (p : Part) (h : HeadId) (r : HeadRec) :
    (p.setHead h r).report = p.report := rfl

@[simp] theorem Part.setHead_image (p : Part) (h : HeadId) (r : HeadRec) :
    (p.setHead h r).image = p.image := rfl

@[simp] theorem Part.setHead_decoder (p : Part) (h : HeadId) (r : HeadRec) (x : HeadId) :
    (p.setHead h r).decoder x = p.decoder x := rfl

@[simp] theorem Part.setHead_sec (p : Part) (h : HeadId) (r : HeadRec) (x : SectionId) :
    (p.setHead h r).sec x = p.sec x := rfl

@[simp] theorem Part.setHead_link (p : Part) (h : HeadId) (r : HeadRec) (x : LinkId) :
    (p.setHead h r).link x = p.link x := rfl

@[simp] theorem Part.setHead_activeTable (p : Part) (h : HeadId) (r : HeadRec)  :
    (p.setHead h r).activeTable = p.activeTable := rfl

@[simp] theorem Part.setHead_headCfg (p : Part) (h : HeadId) (r : HeadRec) (x : HeadId) :
    (p.setHead h r).headCfg x = p.headCfg x := rfl

@[simp] theorem Part.setHead_sectionCfg (p : Part) (h : HeadId) (r : HeadRec) (x : SectionId) :
    (p.setHead h r).sectionCfg x = p.sectionCfg x := rfl

@[simp] theorem Part.setHead_ownAddress (p : Part) (h : HeadId) (r : HeadRec)  :
    (p.setHead h r).ownAddress = p.ownAddress := rfl

@[simp] theorem Part.setHead_inReset (p : Part) (h : HeadId) (r : HeadRec)  :
    (p.setHead h r).inReset = p.inReset := rfl

@[simp] theorem Part.setHead_threshold (p : Part) (h : HeadId) (r : HeadRec) (x : LinkId) :
    (p.setHead h r).threshold x = p.threshold x := rfl

@[simp] theorem Part.setHead_activeCrc (p : Part) (h : HeadId) (r : HeadRec)  :
    (p.setHead h r).activeCrc = p.activeCrc := rfl

@[simp] theorem Part.setHead_holdLimit (p : Part) (h : HeadId) (r : HeadRec)  :
    (p.setHead h r).holdLimit = p.holdLimit := rfl

/-! ### setDecoder -/

@[simp] theorem Part.setDecoder_pins (p : Part) (h : HeadId) (r : DecoderRec) :
    (p.setDecoder h r).pins = p.pins := rfl

@[simp] theorem Part.setDecoder_links (p : Part) (h : HeadId) (r : DecoderRec) :
    (p.setDecoder h r).links = p.links := rfl

@[simp] theorem Part.setDecoder_heads (p : Part) (h : HeadId) (r : DecoderRec) :
    (p.setDecoder h r).heads = p.heads := rfl

@[simp] theorem Part.setDecoder_decoders (p : Part) (h : HeadId) (r : DecoderRec) :
    (p.setDecoder h r).decoders = p.decoders.set h.val r h.isLt := rfl

@[simp] theorem Part.setDecoder_evaluator (p : Part) (h : HeadId) (r : DecoderRec) :
    (p.setDecoder h r).evaluator = p.evaluator := rfl

@[simp] theorem Part.setDecoder_sections (p : Part) (h : HeadId) (r : DecoderRec) :
    (p.setDecoder h r).sections = p.sections := rfl

@[simp] theorem Part.setDecoder_tables (p : Part) (h : HeadId) (r : DecoderRec) :
    (p.setDecoder h r).tables = p.tables := rfl

@[simp] theorem Part.setDecoder_count (p : Part) (h : HeadId) (r : DecoderRec) :
    (p.setDecoder h r).count = p.count := rfl

@[simp] theorem Part.setDecoder_report (p : Part) (h : HeadId) (r : DecoderRec) :
    (p.setDecoder h r).report = p.report := rfl

@[simp] theorem Part.setDecoder_image (p : Part) (h : HeadId) (r : DecoderRec) :
    (p.setDecoder h r).image = p.image := rfl

@[simp] theorem Part.setDecoder_head (p : Part) (h : HeadId) (r : DecoderRec) (x : HeadId) :
    (p.setDecoder h r).head x = p.head x := rfl

@[simp] theorem Part.setDecoder_sec (p : Part) (h : HeadId) (r : DecoderRec) (x : SectionId) :
    (p.setDecoder h r).sec x = p.sec x := rfl

@[simp] theorem Part.setDecoder_link (p : Part) (h : HeadId) (r : DecoderRec) (x : LinkId) :
    (p.setDecoder h r).link x = p.link x := rfl

@[simp] theorem Part.setDecoder_activeTable (p : Part) (h : HeadId) (r : DecoderRec)  :
    (p.setDecoder h r).activeTable = p.activeTable := rfl

@[simp] theorem Part.setDecoder_headCfg (p : Part) (h : HeadId) (r : DecoderRec) (x : HeadId) :
    (p.setDecoder h r).headCfg x = p.headCfg x := rfl

@[simp] theorem Part.setDecoder_sectionCfg (p : Part) (h : HeadId) (r : DecoderRec) (x : SectionId) :
    (p.setDecoder h r).sectionCfg x = p.sectionCfg x := rfl

@[simp] theorem Part.setDecoder_ownAddress (p : Part) (h : HeadId) (r : DecoderRec)  :
    (p.setDecoder h r).ownAddress = p.ownAddress := rfl

@[simp] theorem Part.setDecoder_inReset (p : Part) (h : HeadId) (r : DecoderRec)  :
    (p.setDecoder h r).inReset = p.inReset := rfl

@[simp] theorem Part.setDecoder_threshold (p : Part) (h : HeadId) (r : DecoderRec) (x : LinkId) :
    (p.setDecoder h r).threshold x = p.threshold x := rfl

@[simp] theorem Part.setDecoder_activeCrc (p : Part) (h : HeadId) (r : DecoderRec)  :
    (p.setDecoder h r).activeCrc = p.activeCrc := rfl

@[simp] theorem Part.setDecoder_holdLimit (p : Part) (h : HeadId) (r : DecoderRec)  :
    (p.setDecoder h r).holdLimit = p.holdLimit := rfl

/-! ### setSec -/

@[simp] theorem Part.setSec_pins (p : Part) (i : SectionId) (r : SectionRec) :
    (p.setSec i r).pins = p.pins := rfl

@[simp] theorem Part.setSec_links (p : Part) (i : SectionId) (r : SectionRec) :
    (p.setSec i r).links = p.links := rfl

@[simp] theorem Part.setSec_heads (p : Part) (i : SectionId) (r : SectionRec) :
    (p.setSec i r).heads = p.heads := rfl

@[simp] theorem Part.setSec_decoders (p : Part) (i : SectionId) (r : SectionRec) :
    (p.setSec i r).decoders = p.decoders := rfl

@[simp] theorem Part.setSec_evaluator (p : Part) (i : SectionId) (r : SectionRec) :
    (p.setSec i r).evaluator = p.evaluator := rfl

@[simp] theorem Part.setSec_sections (p : Part) (i : SectionId) (r : SectionRec) :
    (p.setSec i r).sections = p.sections.set i.val r i.isLt := rfl

@[simp] theorem Part.setSec_tables (p : Part) (i : SectionId) (r : SectionRec) :
    (p.setSec i r).tables = p.tables := rfl

@[simp] theorem Part.setSec_count (p : Part) (i : SectionId) (r : SectionRec) :
    (p.setSec i r).count = p.count := rfl

@[simp] theorem Part.setSec_report (p : Part) (i : SectionId) (r : SectionRec) :
    (p.setSec i r).report = p.report := rfl

@[simp] theorem Part.setSec_image (p : Part) (i : SectionId) (r : SectionRec) :
    (p.setSec i r).image = p.image := rfl

@[simp] theorem Part.setSec_head (p : Part) (i : SectionId) (r : SectionRec) (x : HeadId) :
    (p.setSec i r).head x = p.head x := rfl

@[simp] theorem Part.setSec_decoder (p : Part) (i : SectionId) (r : SectionRec) (x : HeadId) :
    (p.setSec i r).decoder x = p.decoder x := rfl

@[simp] theorem Part.setSec_link (p : Part) (i : SectionId) (r : SectionRec) (x : LinkId) :
    (p.setSec i r).link x = p.link x := rfl

@[simp] theorem Part.setSec_activeTable (p : Part) (i : SectionId) (r : SectionRec)  :
    (p.setSec i r).activeTable = p.activeTable := rfl

@[simp] theorem Part.setSec_headCfg (p : Part) (i : SectionId) (r : SectionRec) (x : HeadId) :
    (p.setSec i r).headCfg x = p.headCfg x := rfl

@[simp] theorem Part.setSec_sectionCfg (p : Part) (i : SectionId) (r : SectionRec) (x : SectionId) :
    (p.setSec i r).sectionCfg x = p.sectionCfg x := rfl

@[simp] theorem Part.setSec_ownAddress (p : Part) (i : SectionId) (r : SectionRec)  :
    (p.setSec i r).ownAddress = p.ownAddress := rfl

@[simp] theorem Part.setSec_inReset (p : Part) (i : SectionId) (r : SectionRec)  :
    (p.setSec i r).inReset = p.inReset := rfl

@[simp] theorem Part.setSec_threshold (p : Part) (i : SectionId) (r : SectionRec) (x : LinkId) :
    (p.setSec i r).threshold x = p.threshold x := rfl

@[simp] theorem Part.setSec_activeCrc (p : Part) (i : SectionId) (r : SectionRec)  :
    (p.setSec i r).activeCrc = p.activeCrc := rfl

@[simp] theorem Part.setSec_holdLimit (p : Part) (i : SectionId) (r : SectionRec)  :
    (p.setSec i r).holdLimit = p.holdLimit := rfl

/-! ### setLink -/

@[simp] theorem Part.setLink_pins (p : Part) (l : LinkId) (r : LinkRec) :
    (p.setLink l r).pins = p.pins := rfl

@[simp] theorem Part.setLink_links (p : Part) (l : LinkId) (r : LinkRec) :
    (p.setLink l r).links = p.links.set l.val r l.isLt := rfl

@[simp] theorem Part.setLink_heads (p : Part) (l : LinkId) (r : LinkRec) :
    (p.setLink l r).heads = p.heads := rfl

@[simp] theorem Part.setLink_decoders (p : Part) (l : LinkId) (r : LinkRec) :
    (p.setLink l r).decoders = p.decoders := rfl

@[simp] theorem Part.setLink_evaluator (p : Part) (l : LinkId) (r : LinkRec) :
    (p.setLink l r).evaluator = p.evaluator := rfl

@[simp] theorem Part.setLink_sections (p : Part) (l : LinkId) (r : LinkRec) :
    (p.setLink l r).sections = p.sections := rfl

@[simp] theorem Part.setLink_tables (p : Part) (l : LinkId) (r : LinkRec) :
    (p.setLink l r).tables = p.tables := rfl

@[simp] theorem Part.setLink_count (p : Part) (l : LinkId) (r : LinkRec) :
    (p.setLink l r).count = p.count := rfl

@[simp] theorem Part.setLink_report (p : Part) (l : LinkId) (r : LinkRec) :
    (p.setLink l r).report = p.report := rfl

@[simp] theorem Part.setLink_image (p : Part) (l : LinkId) (r : LinkRec) :
    (p.setLink l r).image = p.image := rfl

@[simp] theorem Part.setLink_head (p : Part) (l : LinkId) (r : LinkRec) (x : HeadId) :
    (p.setLink l r).head x = p.head x := rfl

@[simp] theorem Part.setLink_decoder (p : Part) (l : LinkId) (r : LinkRec) (x : HeadId) :
    (p.setLink l r).decoder x = p.decoder x := rfl

@[simp] theorem Part.setLink_sec (p : Part) (l : LinkId) (r : LinkRec) (x : SectionId) :
    (p.setLink l r).sec x = p.sec x := rfl

@[simp] theorem Part.setLink_activeTable (p : Part) (l : LinkId) (r : LinkRec)  :
    (p.setLink l r).activeTable = p.activeTable := rfl

@[simp] theorem Part.setLink_headCfg (p : Part) (l : LinkId) (r : LinkRec) (x : HeadId) :
    (p.setLink l r).headCfg x = p.headCfg x := rfl

@[simp] theorem Part.setLink_sectionCfg (p : Part) (l : LinkId) (r : LinkRec) (x : SectionId) :
    (p.setLink l r).sectionCfg x = p.sectionCfg x := rfl

@[simp] theorem Part.setLink_ownAddress (p : Part) (l : LinkId) (r : LinkRec)  :
    (p.setLink l r).ownAddress = p.ownAddress := rfl

@[simp] theorem Part.setLink_inReset (p : Part) (l : LinkId) (r : LinkRec)  :
    (p.setLink l r).inReset = p.inReset := rfl

@[simp] theorem Part.setLink_threshold (p : Part) (l : LinkId) (r : LinkRec) (x : LinkId) :
    (p.setLink l r).threshold x = p.threshold x := rfl

@[simp] theorem Part.setLink_activeCrc (p : Part) (l : LinkId) (r : LinkRec)  :
    (p.setLink l r).activeCrc = p.activeCrc := rfl

@[simp] theorem Part.setLink_holdLimit (p : Part) (l : LinkId) (r : LinkRec)  :
    (p.setLink l r).holdLimit = p.holdLimit := rfl

/-! ### setReport -/

@[simp] theorem Part.setReport_pins (p : Part) (v : ReportUnit) : (p.setReport v).pins = p.pins := rfl

@[simp] theorem Part.setReport_links (p : Part) (v : ReportUnit) : (p.setReport v).links = p.links := rfl

@[simp] theorem Part.setReport_heads (p : Part) (v : ReportUnit) : (p.setReport v).heads = p.heads := rfl

@[simp] theorem Part.setReport_decoders (p : Part) (v : ReportUnit) : (p.setReport v).decoders = p.decoders := rfl

@[simp] theorem Part.setReport_evaluator (p : Part) (v : ReportUnit) : (p.setReport v).evaluator = p.evaluator := rfl

@[simp] theorem Part.setReport_sections (p : Part) (v : ReportUnit) : (p.setReport v).sections = p.sections := rfl

@[simp] theorem Part.setReport_tables (p : Part) (v : ReportUnit) : (p.setReport v).tables = p.tables := rfl

@[simp] theorem Part.setReport_count (p : Part) (v : ReportUnit) : (p.setReport v).count = p.count := rfl

@[simp] theorem Part.setReport_report (p : Part) (v : ReportUnit) : (p.setReport v).report = v := rfl

@[simp] theorem Part.setReport_image (p : Part) (v : ReportUnit) : (p.setReport v).image = p.image := rfl

@[simp] theorem Part.setReport_head (p : Part) (v : ReportUnit) (x : HeadId) :
    (p.setReport v).head x = p.head x := rfl

@[simp] theorem Part.setReport_decoder (p : Part) (v : ReportUnit) (x : HeadId) :
    (p.setReport v).decoder x = p.decoder x := rfl

@[simp] theorem Part.setReport_sec (p : Part) (v : ReportUnit) (x : SectionId) :
    (p.setReport v).sec x = p.sec x := rfl

@[simp] theorem Part.setReport_link (p : Part) (v : ReportUnit) (x : LinkId) :
    (p.setReport v).link x = p.link x := rfl

@[simp] theorem Part.setReport_activeTable (p : Part) (v : ReportUnit)  :
    (p.setReport v).activeTable = p.activeTable := rfl

@[simp] theorem Part.setReport_headCfg (p : Part) (v : ReportUnit) (x : HeadId) :
    (p.setReport v).headCfg x = p.headCfg x := rfl

@[simp] theorem Part.setReport_sectionCfg (p : Part) (v : ReportUnit) (x : SectionId) :
    (p.setReport v).sectionCfg x = p.sectionCfg x := rfl

@[simp] theorem Part.setReport_ownAddress (p : Part) (v : ReportUnit)  :
    (p.setReport v).ownAddress = p.ownAddress := rfl

@[simp] theorem Part.setReport_inReset (p : Part) (v : ReportUnit)  :
    (p.setReport v).inReset = p.inReset := rfl

@[simp] theorem Part.setReport_threshold (p : Part) (v : ReportUnit) (x : LinkId) :
    (p.setReport v).threshold x = p.threshold x := rfl

@[simp] theorem Part.setReport_activeCrc (p : Part) (v : ReportUnit)  :
    (p.setReport v).activeCrc = p.activeCrc := rfl

@[simp] theorem Part.setReport_holdLimit (p : Part) (v : ReportUnit)  :
    (p.setReport v).holdLimit = p.holdLimit := rfl

/-! ### setCount -/

@[simp] theorem Part.setCount_pins (p : Part) (v : CountLine) : (p.setCount v).pins = p.pins := rfl

@[simp] theorem Part.setCount_links (p : Part) (v : CountLine) : (p.setCount v).links = p.links := rfl

@[simp] theorem Part.setCount_heads (p : Part) (v : CountLine) : (p.setCount v).heads = p.heads := rfl

@[simp] theorem Part.setCount_decoders (p : Part) (v : CountLine) : (p.setCount v).decoders = p.decoders := rfl

@[simp] theorem Part.setCount_evaluator (p : Part) (v : CountLine) : (p.setCount v).evaluator = p.evaluator := rfl

@[simp] theorem Part.setCount_sections (p : Part) (v : CountLine) : (p.setCount v).sections = p.sections := rfl

@[simp] theorem Part.setCount_tables (p : Part) (v : CountLine) : (p.setCount v).tables = p.tables := rfl

@[simp] theorem Part.setCount_count (p : Part) (v : CountLine) : (p.setCount v).count = v := rfl

@[simp] theorem Part.setCount_report (p : Part) (v : CountLine) : (p.setCount v).report = p.report := rfl

@[simp] theorem Part.setCount_image (p : Part) (v : CountLine) : (p.setCount v).image = p.image := rfl

@[simp] theorem Part.setCount_head (p : Part) (v : CountLine) (x : HeadId) :
    (p.setCount v).head x = p.head x := rfl

@[simp] theorem Part.setCount_decoder (p : Part) (v : CountLine) (x : HeadId) :
    (p.setCount v).decoder x = p.decoder x := rfl

@[simp] theorem Part.setCount_sec (p : Part) (v : CountLine) (x : SectionId) :
    (p.setCount v).sec x = p.sec x := rfl

@[simp] theorem Part.setCount_link (p : Part) (v : CountLine) (x : LinkId) :
    (p.setCount v).link x = p.link x := rfl

@[simp] theorem Part.setCount_activeTable (p : Part) (v : CountLine)  :
    (p.setCount v).activeTable = p.activeTable := rfl

@[simp] theorem Part.setCount_headCfg (p : Part) (v : CountLine) (x : HeadId) :
    (p.setCount v).headCfg x = p.headCfg x := rfl

@[simp] theorem Part.setCount_sectionCfg (p : Part) (v : CountLine) (x : SectionId) :
    (p.setCount v).sectionCfg x = p.sectionCfg x := rfl

@[simp] theorem Part.setCount_ownAddress (p : Part) (v : CountLine)  :
    (p.setCount v).ownAddress = p.ownAddress := rfl

@[simp] theorem Part.setCount_inReset (p : Part) (v : CountLine)  :
    (p.setCount v).inReset = p.inReset := rfl

@[simp] theorem Part.setCount_threshold (p : Part) (v : CountLine) (x : LinkId) :
    (p.setCount v).threshold x = p.threshold x := rfl

@[simp] theorem Part.setCount_activeCrc (p : Part) (v : CountLine)  :
    (p.setCount v).activeCrc = p.activeCrc := rfl

@[simp] theorem Part.setCount_holdLimit (p : Part) (v : CountLine)  :
    (p.setCount v).holdLimit = p.holdLimit := rfl

/-! ### setTables -/

@[simp] theorem Part.setTables_pins (p : Part) (v : TableManager) : (p.setTables v).pins = p.pins := rfl

@[simp] theorem Part.setTables_links (p : Part) (v : TableManager) : (p.setTables v).links = p.links := rfl

@[simp] theorem Part.setTables_heads (p : Part) (v : TableManager) : (p.setTables v).heads = p.heads := rfl

@[simp] theorem Part.setTables_decoders (p : Part) (v : TableManager) : (p.setTables v).decoders = p.decoders := rfl

@[simp] theorem Part.setTables_evaluator (p : Part) (v : TableManager) : (p.setTables v).evaluator = p.evaluator := rfl

@[simp] theorem Part.setTables_sections (p : Part) (v : TableManager) : (p.setTables v).sections = p.sections := rfl

@[simp] theorem Part.setTables_tables (p : Part) (v : TableManager) : (p.setTables v).tables = v := rfl

@[simp] theorem Part.setTables_count (p : Part) (v : TableManager) : (p.setTables v).count = p.count := rfl

@[simp] theorem Part.setTables_report (p : Part) (v : TableManager) : (p.setTables v).report = p.report := rfl

@[simp] theorem Part.setTables_image (p : Part) (v : TableManager) : (p.setTables v).image = p.image := rfl

@[simp] theorem Part.setTables_head (p : Part) (v : TableManager) (x : HeadId) :
    (p.setTables v).head x = p.head x := rfl

@[simp] theorem Part.setTables_decoder (p : Part) (v : TableManager) (x : HeadId) :
    (p.setTables v).decoder x = p.decoder x := rfl

@[simp] theorem Part.setTables_sec (p : Part) (v : TableManager) (x : SectionId) :
    (p.setTables v).sec x = p.sec x := rfl

@[simp] theorem Part.setTables_link (p : Part) (v : TableManager) (x : LinkId) :
    (p.setTables v).link x = p.link x := rfl

@[simp] theorem Part.setTables_ownAddress (p : Part) (v : TableManager)  :
    (p.setTables v).ownAddress = p.ownAddress := rfl

@[simp] theorem Part.setTables_inReset (p : Part) (v : TableManager)  :
    (p.setTables v).inReset = p.inReset := rfl

/-! ### setImage -/

@[simp] theorem Part.setImage_pins (p : Part) (v : ImageStore) : (p.setImage v).pins = p.pins := rfl

@[simp] theorem Part.setImage_links (p : Part) (v : ImageStore) : (p.setImage v).links = p.links := rfl

@[simp] theorem Part.setImage_heads (p : Part) (v : ImageStore) : (p.setImage v).heads = p.heads := rfl

@[simp] theorem Part.setImage_decoders (p : Part) (v : ImageStore) : (p.setImage v).decoders = p.decoders := rfl

@[simp] theorem Part.setImage_evaluator (p : Part) (v : ImageStore) : (p.setImage v).evaluator = p.evaluator := rfl

@[simp] theorem Part.setImage_sections (p : Part) (v : ImageStore) : (p.setImage v).sections = p.sections := rfl

@[simp] theorem Part.setImage_tables (p : Part) (v : ImageStore) : (p.setImage v).tables = p.tables := rfl

@[simp] theorem Part.setImage_count (p : Part) (v : ImageStore) : (p.setImage v).count = p.count := rfl

@[simp] theorem Part.setImage_report (p : Part) (v : ImageStore) : (p.setImage v).report = p.report := rfl

@[simp] theorem Part.setImage_image (p : Part) (v : ImageStore) : (p.setImage v).image = v := rfl

@[simp] theorem Part.setImage_head (p : Part) (v : ImageStore) (x : HeadId) :
    (p.setImage v).head x = p.head x := rfl

@[simp] theorem Part.setImage_decoder (p : Part) (v : ImageStore) (x : HeadId) :
    (p.setImage v).decoder x = p.decoder x := rfl

@[simp] theorem Part.setImage_sec (p : Part) (v : ImageStore) (x : SectionId) :
    (p.setImage v).sec x = p.sec x := rfl

@[simp] theorem Part.setImage_link (p : Part) (v : ImageStore) (x : LinkId) :
    (p.setImage v).link x = p.link x := rfl

@[simp] theorem Part.setImage_activeTable (p : Part) (v : ImageStore)  :
    (p.setImage v).activeTable = p.activeTable := rfl

@[simp] theorem Part.setImage_headCfg (p : Part) (v : ImageStore) (x : HeadId) :
    (p.setImage v).headCfg x = p.headCfg x := rfl

@[simp] theorem Part.setImage_sectionCfg (p : Part) (v : ImageStore) (x : SectionId) :
    (p.setImage v).sectionCfg x = p.sectionCfg x := rfl

@[simp] theorem Part.setImage_ownAddress (p : Part) (v : ImageStore)  :
    (p.setImage v).ownAddress = p.ownAddress := rfl

@[simp] theorem Part.setImage_inReset (p : Part) (v : ImageStore)  :
    (p.setImage v).inReset = p.inReset := rfl

@[simp] theorem Part.setImage_threshold (p : Part) (v : ImageStore) (x : LinkId) :
    (p.setImage v).threshold x = p.threshold x := rfl

@[simp] theorem Part.setImage_activeCrc (p : Part) (v : ImageStore)  :
    (p.setImage v).activeCrc = p.activeCrc := rfl

@[simp] theorem Part.setImage_holdLimit (p : Part) (v : ImageStore)  :
    (p.setImage v).holdLimit = p.holdLimit := rfl

/-! ### setEvaluator -/

@[simp] theorem Part.setEvaluator_pins (p : Part) (v : EvaluatorState) : (p.setEvaluator v).pins = p.pins := rfl

@[simp] theorem Part.setEvaluator_links (p : Part) (v : EvaluatorState) : (p.setEvaluator v).links = p.links := rfl

@[simp] theorem Part.setEvaluator_heads (p : Part) (v : EvaluatorState) : (p.setEvaluator v).heads = p.heads := rfl

@[simp] theorem Part.setEvaluator_decoders (p : Part) (v : EvaluatorState) : (p.setEvaluator v).decoders = p.decoders := rfl

@[simp] theorem Part.setEvaluator_evaluator (p : Part) (v : EvaluatorState) : (p.setEvaluator v).evaluator = v := rfl

@[simp] theorem Part.setEvaluator_sections (p : Part) (v : EvaluatorState) : (p.setEvaluator v).sections = p.sections := rfl

@[simp] theorem Part.setEvaluator_tables (p : Part) (v : EvaluatorState) : (p.setEvaluator v).tables = p.tables := rfl

@[simp] theorem Part.setEvaluator_count (p : Part) (v : EvaluatorState) : (p.setEvaluator v).count = p.count := rfl

@[simp] theorem Part.setEvaluator_report (p : Part) (v : EvaluatorState) : (p.setEvaluator v).report = p.report := rfl

@[simp] theorem Part.setEvaluator_image (p : Part) (v : EvaluatorState) : (p.setEvaluator v).image = p.image := rfl

@[simp] theorem Part.setEvaluator_head (p : Part) (v : EvaluatorState) (x : HeadId) :
    (p.setEvaluator v).head x = p.head x := rfl

@[simp] theorem Part.setEvaluator_decoder (p : Part) (v : EvaluatorState) (x : HeadId) :
    (p.setEvaluator v).decoder x = p.decoder x := rfl

@[simp] theorem Part.setEvaluator_sec (p : Part) (v : EvaluatorState) (x : SectionId) :
    (p.setEvaluator v).sec x = p.sec x := rfl

@[simp] theorem Part.setEvaluator_link (p : Part) (v : EvaluatorState) (x : LinkId) :
    (p.setEvaluator v).link x = p.link x := rfl

@[simp] theorem Part.setEvaluator_activeTable (p : Part) (v : EvaluatorState)  :
    (p.setEvaluator v).activeTable = p.activeTable := rfl

@[simp] theorem Part.setEvaluator_headCfg (p : Part) (v : EvaluatorState) (x : HeadId) :
    (p.setEvaluator v).headCfg x = p.headCfg x := rfl

@[simp] theorem Part.setEvaluator_sectionCfg (p : Part) (v : EvaluatorState) (x : SectionId) :
    (p.setEvaluator v).sectionCfg x = p.sectionCfg x := rfl

@[simp] theorem Part.setEvaluator_ownAddress (p : Part) (v : EvaluatorState)  :
    (p.setEvaluator v).ownAddress = p.ownAddress := rfl

@[simp] theorem Part.setEvaluator_inReset (p : Part) (v : EvaluatorState)  :
    (p.setEvaluator v).inReset = p.inReset := rfl

@[simp] theorem Part.setEvaluator_threshold (p : Part) (v : EvaluatorState) (x : LinkId) :
    (p.setEvaluator v).threshold x = p.threshold x := rfl

@[simp] theorem Part.setEvaluator_activeCrc (p : Part) (v : EvaluatorState)  :
    (p.setEvaluator v).activeCrc = p.activeCrc := rfl

@[simp] theorem Part.setEvaluator_holdLimit (p : Part) (v : EvaluatorState)  :
    (p.setEvaluator v).holdLimit = p.holdLimit := rfl

/-! ### setPins -/

@[simp] theorem Part.setPins_pins (p : Part) (v : Pins) : (p.setPins v).pins = v := rfl

@[simp] theorem Part.setPins_links (p : Part) (v : Pins) : (p.setPins v).links = p.links := rfl

@[simp] theorem Part.setPins_heads (p : Part) (v : Pins) : (p.setPins v).heads = p.heads := rfl

@[simp] theorem Part.setPins_decoders (p : Part) (v : Pins) : (p.setPins v).decoders = p.decoders := rfl

@[simp] theorem Part.setPins_evaluator (p : Part) (v : Pins) : (p.setPins v).evaluator = p.evaluator := rfl

@[simp] theorem Part.setPins_sections (p : Part) (v : Pins) : (p.setPins v).sections = p.sections := rfl

@[simp] theorem Part.setPins_tables (p : Part) (v : Pins) : (p.setPins v).tables = p.tables := rfl

@[simp] theorem Part.setPins_count (p : Part) (v : Pins) : (p.setPins v).count = p.count := rfl

@[simp] theorem Part.setPins_report (p : Part) (v : Pins) : (p.setPins v).report = p.report := rfl

@[simp] theorem Part.setPins_image (p : Part) (v : Pins) : (p.setPins v).image = p.image := rfl

@[simp] theorem Part.setPins_head (p : Part) (v : Pins) (x : HeadId) :
    (p.setPins v).head x = p.head x := rfl

@[simp] theorem Part.setPins_decoder (p : Part) (v : Pins) (x : HeadId) :
    (p.setPins v).decoder x = p.decoder x := rfl

@[simp] theorem Part.setPins_sec (p : Part) (v : Pins) (x : SectionId) :
    (p.setPins v).sec x = p.sec x := rfl

@[simp] theorem Part.setPins_link (p : Part) (v : Pins) (x : LinkId) :
    (p.setPins v).link x = p.link x := rfl

@[simp] theorem Part.setPins_activeTable (p : Part) (v : Pins)  :
    (p.setPins v).activeTable = p.activeTable := rfl

@[simp] theorem Part.setPins_headCfg (p : Part) (v : Pins) (x : HeadId) :
    (p.setPins v).headCfg x = p.headCfg x := rfl

@[simp] theorem Part.setPins_sectionCfg (p : Part) (v : Pins) (x : SectionId) :
    (p.setPins v).sectionCfg x = p.sectionCfg x := rfl

@[simp] theorem Part.setPins_threshold (p : Part) (v : Pins) (x : LinkId) :
    (p.setPins v).threshold x = p.threshold x := rfl

@[simp] theorem Part.setPins_activeCrc (p : Part) (v : Pins)  :
    (p.setPins v).activeCrc = p.activeCrc := rfl

@[simp] theorem Part.setPins_holdLimit (p : Part) (v : Pins)  :
    (p.setPins v).holdLimit = p.holdLimit := rfl

end Sys2Proof.Machine
end

