-- ==== Sys2Proof/Laws/Frames.lean ====
section
/-! SUPPORT. What each shared operation leaves as it is: the blocks (`_keeps`) and the reads of their
records (`_reads`). An operation of one block touches another's state only where a rule says so. -/

namespace Sys2Proof.Machine

/-- A read that no step of a fold changes is the same after the fold. -/
theorem foldl_keeps {α β γ : Type} (g : α → γ) (f : α → β → α) (keeps : ∀ a b, g (f a b) = g a)
    (bs : List β) (a : α) : g (bs.foldl f a) = g a := by
  induction bs generalizing a with
  | nil => rfl
  | cons b bs ih => rw [List.foldl_cons, ih, keeps]

/-- A property that every step of a fold keeps holds after the fold. -/
theorem foldl_inv {α β : Type} (P : α → Prop) (f : α → β → α) (keeps : ∀ a b, P a → P (f a b))
    (bs : List β) (a : α) (h : P a) : P (bs.foldl f a) := by
  induction bs generalizing a with
  | nil => exact h
  | cons b bs ih => exact ih (f a b) (keeps a b h)

@[simp] theorem Part.offer_keeps (p : Part) (n : Notice) :
    (p.offer n).pins = p.pins ∧
      (p.offer n).links = p.links ∧
      (p.offer n).heads = p.heads ∧
      (p.offer n).decoders = p.decoders ∧
      (p.offer n).evaluator = p.evaluator ∧
      (p.offer n).sections = p.sections ∧
      (p.offer n).tables = p.tables ∧
      (p.offer n).count = p.count ∧
      (p.offer n).image = p.image := by
  exact ⟨rfl, rfl, rfl, rfl, rfl, rfl, rfl, rfl, rfl⟩

@[simp] theorem Part.offer_reads (p : Part) (n : Notice) :
    (∀ x, (p.offer n).link x = p.link x) ∧
      (∀ x, (p.offer n).head x = p.head x) ∧
      (∀ x, (p.offer n).decoder x = p.decoder x) ∧
      (∀ x, (p.offer n).sec x = p.sec x) ∧
      (p.offer n).activeTable = p.activeTable ∧
      (∀ x, (p.offer n).headCfg x = p.headCfg x) ∧
      (∀ x, (p.offer n).sectionCfg x = p.sectionCfg x) ∧
      (∀ x, (p.offer n).threshold x = p.threshold x) := by
  simp [Part.link, Part.head, Part.decoder, Part.sec, Part.activeTable, Part.headCfg, Part.sectionCfg, Part.threshold]

@[simp] theorem Part.mark_keeps (p : Part) (i : SectionId) :
    (p.mark i).pins = p.pins ∧
      (p.mark i).links = p.links ∧
      (p.mark i).heads = p.heads ∧
      (p.mark i).decoders = p.decoders ∧
      (p.mark i).evaluator = p.evaluator ∧
      (p.mark i).sections = p.sections ∧
      (p.mark i).tables = p.tables ∧
      (p.mark i).count = p.count ∧
      (p.mark i).image = p.image := by
  exact ⟨rfl, rfl, rfl, rfl, rfl, rfl, rfl, rfl, rfl⟩

@[simp] theorem Part.mark_reads (p : Part) (i : SectionId) :
    (∀ x, (p.mark i).link x = p.link x) ∧
      (∀ x, (p.mark i).head x = p.head x) ∧
      (∀ x, (p.mark i).decoder x = p.decoder x) ∧
      (∀ x, (p.mark i).sec x = p.sec x) ∧
      (p.mark i).activeTable = p.activeTable ∧
      (∀ x, (p.mark i).headCfg x = p.headCfg x) ∧
      (∀ x, (p.mark i).sectionCfg x = p.sectionCfg x) ∧
      (∀ x, (p.mark i).threshold x = p.threshold x) := by
  simp [Part.link, Part.head, Part.decoder, Part.sec, Part.activeTable, Part.headCfg, Part.sectionCfg, Part.threshold]

@[simp] theorem Part.offerHeadState_keeps (p : Part) (h : HeadId) :
    (p.offerHeadState h).pins = p.pins ∧
      (p.offerHeadState h).links = p.links ∧
      (p.offerHeadState h).heads = p.heads ∧
      (p.offerHeadState h).decoders = p.decoders ∧
      (p.offerHeadState h).evaluator = p.evaluator ∧
      (p.offerHeadState h).sections = p.sections ∧
      (p.offerHeadState h).tables = p.tables ∧
      (p.offerHeadState h).count = p.count ∧
      (p.offerHeadState h).image = p.image := by
  exact ⟨rfl, rfl, rfl, rfl, rfl, rfl, rfl, rfl, rfl⟩

@[simp] theorem Part.offerHeadState_reads (p : Part) (h : HeadId) :
    (∀ x, (p.offerHeadState h).link x = p.link x) ∧
      (∀ x, (p.offerHeadState h).head x = p.head x) ∧
      (∀ x, (p.offerHeadState h).decoder x = p.decoder x) ∧
      (∀ x, (p.offerHeadState h).sec x = p.sec x) ∧
      (p.offerHeadState h).activeTable = p.activeTable ∧
      (∀ x, (p.offerHeadState h).headCfg x = p.headCfg x) ∧
      (∀ x, (p.offerHeadState h).sectionCfg x = p.sectionCfg x) ∧
      (∀ x, (p.offerHeadState h).threshold x = p.threshold x) := by
  simp [Part.link, Part.head, Part.decoder, Part.sec, Part.activeTable, Part.headCfg, Part.sectionCfg, Part.threshold]

@[simp] theorem Part.disturb_keeps (p : Part) (i : SectionId) (c : Cause) :
    (p.disturb i c).pins = p.pins ∧
      (p.disturb i c).links = p.links ∧
      (p.disturb i c).heads = p.heads ∧
      (p.disturb i c).decoders = p.decoders ∧
      (p.disturb i c).evaluator = p.evaluator ∧
      (p.disturb i c).tables = p.tables ∧
      (p.disturb i c).count = p.count ∧
      (p.disturb i c).image = p.image := by
  exact ⟨rfl, rfl, rfl, rfl, rfl, rfl, rfl, rfl⟩

@[simp] theorem Part.disturb_reads (p : Part) (i : SectionId) (c : Cause) :
    (∀ x, (p.disturb i c).link x = p.link x) ∧
      (∀ x, (p.disturb i c).head x = p.head x) ∧
      (∀ x, (p.disturb i c).decoder x = p.decoder x) ∧
      (p.disturb i c).activeTable = p.activeTable ∧
      (∀ x, (p.disturb i c).headCfg x = p.headCfg x) ∧
      (∀ x, (p.disturb i c).sectionCfg x = p.sectionCfg x) ∧
      (∀ x, (p.disturb i c).threshold x = p.threshold x) := by
  simp [Part.link, Part.head, Part.decoder, Part.activeTable, Part.headCfg, Part.sectionCfg, Part.threshold]

@[simp] theorem Part.disturbUnlessDisturbed_keeps (p : Part) (i : SectionId) (c : Cause) :
    (p.disturbUnlessDisturbed i c).pins = p.pins ∧
      (p.disturbUnlessDisturbed i c).links = p.links ∧
      (p.disturbUnlessDisturbed i c).heads = p.heads ∧
      (p.disturbUnlessDisturbed i c).decoders = p.decoders ∧
      (p.disturbUnlessDisturbed i c).evaluator = p.evaluator ∧
      (p.disturbUnlessDisturbed i c).tables = p.tables ∧
      (p.disturbUnlessDisturbed i c).count = p.count ∧
      (p.disturbUnlessDisturbed i c).image = p.image := by
  unfold Part.disturbUnlessDisturbed
  (repeat' split) <;> simp

@[simp] theorem Part.disturbUnlessDisturbed_reads (p : Part) (i : SectionId) (c : Cause) :
    (∀ x, (p.disturbUnlessDisturbed i c).link x = p.link x) ∧
      (∀ x, (p.disturbUnlessDisturbed i c).head x = p.head x) ∧
      (∀ x, (p.disturbUnlessDisturbed i c).decoder x = p.decoder x) ∧
      (p.disturbUnlessDisturbed i c).activeTable = p.activeTable ∧
      (∀ x, (p.disturbUnlessDisturbed i c).headCfg x = p.headCfg x) ∧
      (∀ x, (p.disturbUnlessDisturbed i c).sectionCfg x = p.sectionCfg x) ∧
      (∀ x, (p.disturbUnlessDisturbed i c).threshold x = p.threshold x) := by
  simp [Part.link, Part.head, Part.decoder, Part.activeTable, Part.headCfg, Part.sectionCfg, Part.threshold]

@[simp] theorem Part.outOfService_keeps (p : Part) (h : HeadId) (c : HeadCause) :
    (p.outOfService h c).pins = p.pins ∧
      (p.outOfService h c).links = p.links ∧
      (p.outOfService h c).heads = p.heads ∧
      (p.outOfService h c).decoders = p.decoders ∧
      (p.outOfService h c).evaluator = p.evaluator ∧
      (p.outOfService h c).tables = p.tables ∧
      (p.outOfService h c).count = p.count ∧
      (p.outOfService h c).image = p.image := by
  have k : ((p.outOfService h c).pins, (p.outOfService h c).links, (p.outOfService h c).heads, (p.outOfService h c).decoders, (p.outOfService h c).evaluator, (p.outOfService h c).tables, (p.outOfService h c).count, (p.outOfService h c).image) = (p.pins, p.links, p.heads, p.decoders, p.evaluator, p.tables, p.count, p.image) := by
    simp only [Part.outOfService]
    exact foldl_keeps (fun q : Part => (q.pins, q.links, q.heads, q.decoders, q.evaluator, q.tables, q.count, q.image)) _ (fun q x => by (try split) <;> simp) _ _
  simpa using k

@[simp] theorem Part.outOfService_reads (p : Part) (h : HeadId) (c : HeadCause) :
    (∀ x, (p.outOfService h c).link x = p.link x) ∧
      (∀ x, (p.outOfService h c).head x = p.head x) ∧
      (∀ x, (p.outOfService h c).decoder x = p.decoder x) ∧
      (p.outOfService h c).activeTable = p.activeTable ∧
      (∀ x, (p.outOfService h c).headCfg x = p.headCfg x) ∧
      (∀ x, (p.outOfService h c).sectionCfg x = p.sectionCfg x) ∧
      (∀ x, (p.outOfService h c).threshold x = p.threshold x) := by
  simp [Part.link, Part.head, Part.decoder, Part.activeTable, Part.headCfg, Part.sectionCfg, Part.threshold]

@[simp] theorem Part.failHead_keeps (p : Part) (h : HeadId) (c : HeadCause) :
    (p.failHead h c).pins = p.pins ∧
      (p.failHead h c).links = p.links ∧
      (p.failHead h c).evaluator = p.evaluator ∧
      (p.failHead h c).tables = p.tables ∧
      (p.failHead h c).count = p.count ∧
      (p.failHead h c).image = p.image := by
  simp only [Part.failHead]
  split <;> simp

@[simp] theorem Part.failHead_reads (p : Part) (h : HeadId) (c : HeadCause) :
    (∀ x, (p.failHead h c).link x = p.link x) ∧
      (p.failHead h c).activeTable = p.activeTable ∧
      (∀ x, (p.failHead h c).headCfg x = p.headCfg x) ∧
      (∀ x, (p.failHead h c).sectionCfg x = p.sectionCfg x) ∧
      (∀ x, (p.failHead h c).threshold x = p.threshold x) := by
  simp [Part.link, Part.activeTable, Part.headCfg, Part.sectionCfg, Part.threshold]

@[simp] theorem Part.offerRelayResults_keeps (p : Part) (l : LinkId) (r : RelayResult) (cs : List RelayCommand) :
    (p.offerRelayResults l r cs).pins = p.pins ∧
      (p.offerRelayResults l r cs).links = p.links ∧
      (p.offerRelayResults l r cs).heads = p.heads ∧
      (p.offerRelayResults l r cs).decoders = p.decoders ∧
      (p.offerRelayResults l r cs).evaluator = p.evaluator ∧
      (p.offerRelayResults l r cs).sections = p.sections ∧
      (p.offerRelayResults l r cs).tables = p.tables ∧
      (p.offerRelayResults l r cs).count = p.count ∧
      (p.offerRelayResults l r cs).image = p.image := by
  induction cs generalizing p with
  | nil => simp [Part.offerRelayResults]
  | cons c cs ih => simp [Part.offerRelayResults, ih]

@[simp] theorem Part.offerRelayResults_reads (p : Part) (l : LinkId) (r : RelayResult) (cs : List RelayCommand) :
    (∀ x, (p.offerRelayResults l r cs).link x = p.link x) ∧
      (∀ x, (p.offerRelayResults l r cs).head x = p.head x) ∧
      (∀ x, (p.offerRelayResults l r cs).decoder x = p.decoder x) ∧
      (∀ x, (p.offerRelayResults l r cs).sec x = p.sec x) ∧
      (p.offerRelayResults l r cs).activeTable = p.activeTable ∧
      (∀ x, (p.offerRelayResults l r cs).headCfg x = p.headCfg x) ∧
      (∀ x, (p.offerRelayResults l r cs).sectionCfg x = p.sectionCfg x) ∧
      (∀ x, (p.offerRelayResults l r cs).threshold x = p.threshold x) := by
  simp [Part.link, Part.head, Part.decoder, Part.sec, Part.activeTable, Part.headCfg, Part.sectionCfg, Part.threshold]

@[simp] theorem Part.completeRelay_keeps (p : Part) (l : LinkId) (r : RelayResult) :
    (p.completeRelay l r).pins = p.pins ∧
      (p.completeRelay l r).heads = p.heads ∧
      (p.completeRelay l r).decoders = p.decoders ∧
      (p.completeRelay l r).evaluator = p.evaluator ∧
      (p.completeRelay l r).sections = p.sections ∧
      (p.completeRelay l r).tables = p.tables ∧
      (p.completeRelay l r).count = p.count ∧
      (p.completeRelay l r).image = p.image := by
  unfold Part.completeRelay
  (repeat' split) <;> simp

@[simp] theorem Part.completeRelay_reads (p : Part) (l : LinkId) (r : RelayResult) :
    (∀ x, (p.completeRelay l r).head x = p.head x) ∧
      (∀ x, (p.completeRelay l r).decoder x = p.decoder x) ∧
      (∀ x, (p.completeRelay l r).sec x = p.sec x) ∧
      (p.completeRelay l r).activeTable = p.activeTable ∧
      (∀ x, (p.completeRelay l r).headCfg x = p.headCfg x) ∧
      (∀ x, (p.completeRelay l r).sectionCfg x = p.sectionCfg x) ∧
      (∀ x, (p.completeRelay l r).threshold x = p.threshold x) := by
  simp [Part.head, Part.decoder, Part.sec, Part.activeTable, Part.headCfg, Part.sectionCfg, Part.threshold]

@[simp] theorem Part.cancelRelays_keeps (p : Part) (l : LinkId) (f : RelayCommand → Bool) :
    (p.cancelRelays l f).pins = p.pins ∧
      (p.cancelRelays l f).heads = p.heads ∧
      (p.cancelRelays l f).decoders = p.decoders ∧
      (p.cancelRelays l f).evaluator = p.evaluator ∧
      (p.cancelRelays l f).sections = p.sections ∧
      (p.cancelRelays l f).tables = p.tables ∧
      (p.cancelRelays l f).count = p.count ∧
      (p.cancelRelays l f).image = p.image := by
  simp [Part.cancelRelays]

@[simp] theorem Part.cancelRelays_reads (p : Part) (l : LinkId) (f : RelayCommand → Bool) :
    (∀ x, (p.cancelRelays l f).head x = p.head x) ∧
      (∀ x, (p.cancelRelays l f).decoder x = p.decoder x) ∧
      (∀ x, (p.cancelRelays l f).sec x = p.sec x) ∧
      (p.cancelRelays l f).activeTable = p.activeTable ∧
      (∀ x, (p.cancelRelays l f).headCfg x = p.headCfg x) ∧
      (∀ x, (p.cancelRelays l f).sectionCfg x = p.sectionCfg x) ∧
      (∀ x, (p.cancelRelays l f).threshold x = p.threshold x) := by
  simp [Part.head, Part.decoder, Part.sec, Part.activeTable, Part.headCfg, Part.sectionCfg, Part.threshold]

@[simp] theorem Part.placeReply_keeps (p : Part) (tag kind : Octet) (a : Answer) :
    (p.placeReply tag kind a).pins = p.pins ∧
      (p.placeReply tag kind a).links = p.links ∧
      (p.placeReply tag kind a).heads = p.heads ∧
      (p.placeReply tag kind a).decoders = p.decoders ∧
      (p.placeReply tag kind a).evaluator = p.evaluator ∧
      (p.placeReply tag kind a).sections = p.sections ∧
      (p.placeReply tag kind a).tables = p.tables ∧
      (p.placeReply tag kind a).report = p.report ∧
      (p.placeReply tag kind a).image = p.image := by
  exact ⟨rfl, rfl, rfl, rfl, rfl, rfl, rfl, rfl, rfl⟩

@[simp] theorem Part.placeReply_reads (p : Part) (tag kind : Octet) (a : Answer) :
    (∀ x, (p.placeReply tag kind a).link x = p.link x) ∧
      (∀ x, (p.placeReply tag kind a).head x = p.head x) ∧
      (∀ x, (p.placeReply tag kind a).decoder x = p.decoder x) ∧
      (∀ x, (p.placeReply tag kind a).sec x = p.sec x) ∧
      (p.placeReply tag kind a).activeTable = p.activeTable ∧
      (∀ x, (p.placeReply tag kind a).headCfg x = p.headCfg x) ∧
      (∀ x, (p.placeReply tag kind a).sectionCfg x = p.sectionCfg x) ∧
      (∀ x, (p.placeReply tag kind a).threshold x = p.threshold x) := by
  simp [Part.link, Part.head, Part.decoder, Part.sec, Part.activeTable, Part.headCfg, Part.sectionCfg, Part.threshold]

@[simp] theorem Part.applyWheel_keeps (p : Part) (i : SectionId) (w : Bool) :
    (p.applyWheel i w).pins = p.pins ∧
      (p.applyWheel i w).links = p.links ∧
      (p.applyWheel i w).heads = p.heads ∧
      (p.applyWheel i w).decoders = p.decoders ∧
      (p.applyWheel i w).evaluator = p.evaluator ∧
      (p.applyWheel i w).tables = p.tables ∧
      (p.applyWheel i w).count = p.count ∧
      (p.applyWheel i w).image = p.image := by
  simp only [Part.applyWheel]
  split <;> simp

@[simp] theorem Part.applyWheel_reads (p : Part) (i : SectionId) (w : Bool) :
    (∀ x, (p.applyWheel i w).link x = p.link x) ∧
      (∀ x, (p.applyWheel i w).head x = p.head x) ∧
      (∀ x, (p.applyWheel i w).decoder x = p.decoder x) ∧
      (p.applyWheel i w).activeTable = p.activeTable ∧
      (∀ x, (p.applyWheel i w).headCfg x = p.headCfg x) ∧
      (∀ x, (p.applyWheel i w).sectionCfg x = p.sectionCfg x) ∧
      (∀ x, (p.applyWheel i w).threshold x = p.threshold x) := by
  simp [Part.link, Part.head, Part.decoder, Part.activeTable, Part.headCfg, Part.sectionCfg, Part.threshold]

@[simp] theorem Part.wheelEvent_keeps (p : Part) (h : HeadId) (d : Dir) :
    (p.wheelEvent h d).pins = p.pins ∧
      (p.wheelEvent h d).links = p.links ∧
      (p.wheelEvent h d).heads = p.heads ∧
      (p.wheelEvent h d).decoders = p.decoders ∧
      (p.wheelEvent h d).evaluator = p.evaluator ∧
      (p.wheelEvent h d).tables = p.tables ∧
      (p.wheelEvent h d).count = p.count ∧
      (p.wheelEvent h d).image = p.image := by
  have k : ((p.wheelEvent h d).pins, (p.wheelEvent h d).links, (p.wheelEvent h d).heads, (p.wheelEvent h d).decoders, (p.wheelEvent h d).evaluator, (p.wheelEvent h d).tables, (p.wheelEvent h d).count, (p.wheelEvent h d).image) = (p.pins, p.links, p.heads, p.decoders, p.evaluator, p.tables, p.count, p.image) := by
    unfold Part.wheelEvent
    split
    · exact foldl_keeps (fun q : Part => (q.pins, q.links, q.heads, q.decoders, q.evaluator, q.tables, q.count, q.image)) _ (fun q x => by simp) _ _
    · rfl
  simpa using k

@[simp] theorem Part.wheelEvent_reads (p : Part) (h : HeadId) (d : Dir) :
    (∀ x, (p.wheelEvent h d).link x = p.link x) ∧
      (∀ x, (p.wheelEvent h d).head x = p.head x) ∧
      (∀ x, (p.wheelEvent h d).decoder x = p.decoder x) ∧
      (p.wheelEvent h d).activeTable = p.activeTable ∧
      (∀ x, (p.wheelEvent h d).headCfg x = p.headCfg x) ∧
      (∀ x, (p.wheelEvent h d).sectionCfg x = p.sectionCfg x) ∧
      (∀ x, (p.wheelEvent h d).threshold x = p.threshold x) := by
  simp [Part.link, Part.head, Part.decoder, Part.activeTable, Part.headCfg, Part.sectionCfg, Part.threshold]

@[simp] theorem Part.confirmExpiry_keeps (p : Part) (i : SectionId) :
    (p.confirmExpiry i).pins = p.pins ∧
      (p.confirmExpiry i).links = p.links ∧
      (p.confirmExpiry i).heads = p.heads ∧
      (p.confirmExpiry i).decoders = p.decoders ∧
      (p.confirmExpiry i).evaluator = p.evaluator ∧
      (p.confirmExpiry i).tables = p.tables ∧
      (p.confirmExpiry i).count = p.count ∧
      (p.confirmExpiry i).image = p.image := by
  simp only [Part.confirmExpiry]
  (repeat' split) <;> simp

@[simp] theorem Part.confirmExpiry_reads (p : Part) (i : SectionId) :
    (∀ x, (p.confirmExpiry i).link x = p.link x) ∧
      (∀ x, (p.confirmExpiry i).head x = p.head x) ∧
      (∀ x, (p.confirmExpiry i).decoder x = p.decoder x) ∧
      (p.confirmExpiry i).activeTable = p.activeTable ∧
      (∀ x, (p.confirmExpiry i).headCfg x = p.headCfg x) ∧
      (∀ x, (p.confirmExpiry i).sectionCfg x = p.sectionCfg x) ∧
      (∀ x, (p.confirmExpiry i).threshold x = p.threshold x) := by
  simp [Part.link, Part.head, Part.decoder, Part.activeTable, Part.headCfg, Part.sectionCfg, Part.threshold]

@[simp] theorem Part.deliverEntry_keeps (p : Part) (h : HeadId) (e : Phase) :
    (p.deliverEntry h e).1.pins = p.pins ∧
      (p.deliverEntry h e).1.links = p.links ∧
      (p.deliverEntry h e).1.heads = p.heads ∧
      (p.deliverEntry h e).1.evaluator = p.evaluator ∧
      (p.deliverEntry h e).1.tables = p.tables ∧
      (p.deliverEntry h e).1.count = p.count ∧
      (p.deliverEntry h e).1.image = p.image := by
  simp only [Part.deliverEntry]
  split <;> simp

@[simp] theorem Part.deliverEntry_reads (p : Part) (h : HeadId) (e : Phase) :
    (∀ x, (p.deliverEntry h e).1.link x = p.link x) ∧
      (∀ x, (p.deliverEntry h e).1.head x = p.head x) ∧
      (p.deliverEntry h e).1.activeTable = p.activeTable ∧
      (∀ x, (p.deliverEntry h e).1.headCfg x = p.headCfg x) ∧
      (∀ x, (p.deliverEntry h e).1.sectionCfg x = p.sectionCfg x) ∧
      (∀ x, (p.deliverEntry h e).1.threshold x = p.threshold x) := by
  simp [Part.link, Part.head, Part.activeTable, Part.headCfg, Part.sectionCfg, Part.threshold]

@[simp] theorem Part.deliver_keeps (p : Part) (h : HeadId) (es : List Phase) :
    (p.deliver h es).1.pins = p.pins ∧
      (p.deliver h es).1.links = p.links ∧
      (p.deliver h es).1.heads = p.heads ∧
      (p.deliver h es).1.evaluator = p.evaluator ∧
      (p.deliver h es).1.tables = p.tables ∧
      (p.deliver h es).1.count = p.count ∧
      (p.deliver h es).1.image = p.image := by
  induction es generalizing p with
  | nil => simp [Part.deliver]
  | cons e es ih =>
    have k := p.deliverEntry_keeps h e
    unfold Part.deliver
    split
    · rename_i q eq; simpa [eq] using k
    · rename_i q eq; rw [eq] at k; simpa [ih] using k

@[simp] theorem Part.deliver_reads (p : Part) (h : HeadId) (es : List Phase) :
    (∀ x, (p.deliver h es).1.link x = p.link x) ∧
      (∀ x, (p.deliver h es).1.head x = p.head x) ∧
      (p.deliver h es).1.activeTable = p.activeTable ∧
      (∀ x, (p.deliver h es).1.headCfg x = p.headCfg x) ∧
      (∀ x, (p.deliver h es).1.sectionCfg x = p.sectionCfg x) ∧
      (∀ x, (p.deliver h es).1.threshold x = p.threshold x) := by
  simp [Part.link, Part.head, Part.activeTable, Part.headCfg, Part.sectionCfg, Part.threshold]

@[simp] theorem Part.changeHead_keeps (p : Part) (h : HeadId) (f : HeadRec → HeadRec) :
    (p.changeHead h f).pins = p.pins ∧
      (p.changeHead h f).links = p.links ∧
      (p.changeHead h f).decoders = p.decoders ∧
      (p.changeHead h f).evaluator = p.evaluator ∧
      (p.changeHead h f).sections = p.sections ∧
      (p.changeHead h f).tables = p.tables ∧
      (p.changeHead h f).count = p.count ∧
      (p.changeHead h f).report = p.report ∧
      (p.changeHead h f).image = p.image := by
  exact ⟨rfl, rfl, rfl, rfl, rfl, rfl, rfl, rfl, rfl⟩

@[simp] theorem Part.changeHead_reads (p : Part) (h : HeadId) (f : HeadRec → HeadRec) :
    (∀ x, (p.changeHead h f).link x = p.link x) ∧
      (∀ x, (p.changeHead h f).decoder x = p.decoder x) ∧
      (∀ x, (p.changeHead h f).sec x = p.sec x) ∧
      (p.changeHead h f).activeTable = p.activeTable ∧
      (∀ x, (p.changeHead h f).headCfg x = p.headCfg x) ∧
      (∀ x, (p.changeHead h f).sectionCfg x = p.sectionCfg x) ∧
      (∀ x, (p.changeHead h f).threshold x = p.threshold x) := by
  simp [Part.link, Part.decoder, Part.sec, Part.activeTable, Part.headCfg, Part.sectionCfg, Part.threshold]

@[simp] theorem Part.startSilence_keeps (p : Part) (h : HeadId) :
    (p.startSilence h).pins = p.pins ∧
      (p.startSilence h).links = p.links ∧
      (p.startSilence h).decoders = p.decoders ∧
      (p.startSilence h).evaluator = p.evaluator ∧
      (p.startSilence h).sections = p.sections ∧
      (p.startSilence h).tables = p.tables ∧
      (p.startSilence h).count = p.count ∧
      (p.startSilence h).report = p.report ∧
      (p.startSilence h).image = p.image := by
  exact ⟨rfl, rfl, rfl, rfl, rfl, rfl, rfl, rfl, rfl⟩

@[simp] theorem Part.startSilence_reads (p : Part) (h : HeadId) :
    (∀ x, (p.startSilence h).link x = p.link x) ∧
      (∀ x, (p.startSilence h).decoder x = p.decoder x) ∧
      (∀ x, (p.startSilence h).sec x = p.sec x) ∧
      (p.startSilence h).activeTable = p.activeTable ∧
      (∀ x, (p.startSilence h).headCfg x = p.headCfg x) ∧
      (∀ x, (p.startSilence h).sectionCfg x = p.sectionCfg x) ∧
      (∀ x, (p.startSilence h).threshold x = p.threshold x) := by
  simp [Part.link, Part.decoder, Part.sec, Part.activeTable, Part.headCfg, Part.sectionCfg, Part.threshold]

@[simp] theorem Part.beginAcquisition_keeps (p : Part) (h : HeadId) :
    (p.beginAcquisition h).pins = p.pins ∧
      (p.beginAcquisition h).links = p.links ∧
      (p.beginAcquisition h).decoders = p.decoders ∧
      (p.beginAcquisition h).evaluator = p.evaluator ∧
      (p.beginAcquisition h).sections = p.sections ∧
      (p.beginAcquisition h).tables = p.tables ∧
      (p.beginAcquisition h).count = p.count ∧
      (p.beginAcquisition h).image = p.image := by
  exact ⟨rfl, rfl, rfl, rfl, rfl, rfl, rfl, rfl⟩

@[simp] theorem Part.beginAcquisition_reads (p : Part) (h : HeadId) :
    (∀ x, (p.beginAcquisition h).link x = p.link x) ∧
      (∀ x, (p.beginAcquisition h).decoder x = p.decoder x) ∧
      (∀ x, (p.beginAcquisition h).sec x = p.sec x) ∧
      (p.beginAcquisition h).activeTable = p.activeTable ∧
      (∀ x, (p.beginAcquisition h).headCfg x = p.headCfg x) ∧
      (∀ x, (p.beginAcquisition h).sectionCfg x = p.sectionCfg x) ∧
      (∀ x, (p.beginAcquisition h).threshold x = p.threshold x) := by
  simp [Part.link, Part.decoder, Part.sec, Part.activeTable, Part.headCfg, Part.sectionCfg, Part.threshold]

@[simp] theorem Part.silenceStep_keeps (p : Part) (h : HeadId) :
    (p.silenceStep h).pins = p.pins ∧
      (p.silenceStep h).links = p.links ∧
      (p.silenceStep h).decoders = p.decoders ∧
      (p.silenceStep h).evaluator = p.evaluator ∧
      (p.silenceStep h).sections = p.sections ∧
      (p.silenceStep h).tables = p.tables ∧
      (p.silenceStep h).count = p.count ∧
      (p.silenceStep h).image = p.image := by
  unfold Part.silenceStep
  (repeat' split) <;> simp

@[simp] theorem Part.silenceStep_reads (p : Part) (h : HeadId) :
    (∀ x, (p.silenceStep h).link x = p.link x) ∧
      (∀ x, (p.silenceStep h).decoder x = p.decoder x) ∧
      (∀ x, (p.silenceStep h).sec x = p.sec x) ∧
      (p.silenceStep h).activeTable = p.activeTable ∧
      (∀ x, (p.silenceStep h).headCfg x = p.headCfg x) ∧
      (∀ x, (p.silenceStep h).sectionCfg x = p.sectionCfg x) ∧
      (∀ x, (p.silenceStep h).threshold x = p.threshold x) := by
  simp [Part.link, Part.decoder, Part.sec, Part.activeTable, Part.headCfg, Part.sectionCfg, Part.threshold]

@[simp] theorem Part.restartMarkerStep_keeps (p : Part) (h : HeadId) :
    (p.restartMarkerStep h).pins = p.pins ∧
      (p.restartMarkerStep h).links = p.links ∧
      (p.restartMarkerStep h).evaluator = p.evaluator ∧
      (p.restartMarkerStep h).tables = p.tables ∧
      (p.restartMarkerStep h).count = p.count ∧
      (p.restartMarkerStep h).image = p.image := by
  unfold Part.restartMarkerStep
  (repeat' split) <;> simp

@[simp] theorem Part.restartMarkerStep_reads (p : Part) (h : HeadId) :
    (∀ x, (p.restartMarkerStep h).link x = p.link x) ∧
      (p.restartMarkerStep h).activeTable = p.activeTable ∧
      (∀ x, (p.restartMarkerStep h).headCfg x = p.headCfg x) ∧
      (∀ x, (p.restartMarkerStep h).sectionCfg x = p.sectionCfg x) ∧
      (∀ x, (p.restartMarkerStep h).threshold x = p.threshold x) := by
  simp [Part.link, Part.activeTable, Part.headCfg, Part.sectionCfg, Part.threshold]

@[simp] theorem Part.changeListInService_keeps (p : Part) (h : HeadId) (t : HeadTelegram) :
    (p.changeListInService h t).pins = p.pins ∧
      (p.changeListInService h t).links = p.links ∧
      (p.changeListInService h t).evaluator = p.evaluator ∧
      (p.changeListInService h t).tables = p.tables ∧
      (p.changeListInService h t).count = p.count ∧
      (p.changeListInService h t).image = p.image := by
  have k := p.deliver_keeps h t.changes
  unfold Part.changeListInService
  split
  · rename_i q e
    rw [e] at k
    simp only at k
    simp [k]
  · rename_i q e
    rw [e] at k
    simp only at k
    split <;> simp [k]

@[simp] theorem Part.changeListInService_reads (p : Part) (h : HeadId) (t : HeadTelegram) :
    (∀ x, (p.changeListInService h t).link x = p.link x) ∧
      (p.changeListInService h t).activeTable = p.activeTable ∧
      (∀ x, (p.changeListInService h t).headCfg x = p.headCfg x) ∧
      (∀ x, (p.changeListInService h t).sectionCfg x = p.sectionCfg x) ∧
      (∀ x, (p.changeListInService h t).threshold x = p.threshold x) := by
  simp [Part.link, Part.activeTable, Part.headCfg, Part.sectionCfg, Part.threshold]

@[simp] theorem Part.changeListStep_keeps (p : Part) (h : HeadId) (t : HeadTelegram) :
    (p.changeListStep h t).pins = p.pins ∧
      (p.changeListStep h t).links = p.links ∧
      (p.changeListStep h t).evaluator = p.evaluator ∧
      (p.changeListStep h t).tables = p.tables ∧
      (p.changeListStep h t).count = p.count ∧
      (p.changeListStep h t).image = p.image := by
  unfold Part.changeListStep
  (repeat' split) <;> simp

@[simp] theorem Part.changeListStep_reads (p : Part) (h : HeadId) (t : HeadTelegram) :
    (∀ x, (p.changeListStep h t).link x = p.link x) ∧
      (p.changeListStep h t).activeTable = p.activeTable ∧
      (∀ x, (p.changeListStep h t).headCfg x = p.headCfg x) ∧
      (∀ x, (p.changeListStep h t).sectionCfg x = p.sectionCfg x) ∧
      (∀ x, (p.changeListStep h t).threshold x = p.threshold x) := by
  simp [Part.link, Part.activeTable, Part.headCfg, Part.sectionCfg, Part.threshold]

@[simp] theorem Part.bridgedStep_keeps (p : Part) (h : HeadId) (k : Nat) (t : HeadTelegram) :
    (p.bridgedStep h k t).pins = p.pins ∧
      (p.bridgedStep h k t).links = p.links ∧
      (p.bridgedStep h k t).evaluator = p.evaluator ∧
      (p.bridgedStep h k t).tables = p.tables ∧
      (p.bridgedStep h k t).count = p.count ∧
      (p.bridgedStep h k t).image = p.image := by
  simp only [Part.bridgedStep]
  (repeat' split) <;> simp

@[simp] theorem Part.bridgedStep_reads (p : Part) (h : HeadId) (k : Nat) (t : HeadTelegram) :
    (∀ x, (p.bridgedStep h k t).link x = p.link x) ∧
      (p.bridgedStep h k t).activeTable = p.activeTable ∧
      (∀ x, (p.bridgedStep h k t).headCfg x = p.headCfg x) ∧
      (∀ x, (p.bridgedStep h k t).sectionCfg x = p.sectionCfg x) ∧
      (∀ x, (p.bridgedStep h k t).threshold x = p.threshold x) := by
  simp [Part.link, Part.activeTable, Part.headCfg, Part.sectionCfg, Part.threshold]

@[simp] theorem Part.sequenceLossStep_keeps (p : Part) (h : HeadId) :
    (p.sequenceLossStep h).pins = p.pins ∧
      (p.sequenceLossStep h).links = p.links ∧
      (p.sequenceLossStep h).evaluator = p.evaluator ∧
      (p.sequenceLossStep h).tables = p.tables ∧
      (p.sequenceLossStep h).count = p.count ∧
      (p.sequenceLossStep h).image = p.image := by
  unfold Part.sequenceLossStep
  (repeat' split) <;> simp

@[simp] theorem Part.sequenceLossStep_reads (p : Part) (h : HeadId) :
    (∀ x, (p.sequenceLossStep h).link x = p.link x) ∧
      (p.sequenceLossStep h).activeTable = p.activeTable ∧
      (∀ x, (p.sequenceLossStep h).headCfg x = p.headCfg x) ∧
      (∀ x, (p.sequenceLossStep h).sectionCfg x = p.sectionCfg x) ∧
      (∀ x, (p.sequenceLossStep h).threshold x = p.threshold x) := by
  simp [Part.link, Part.activeTable, Part.headCfg, Part.sectionCfg, Part.threshold]

@[simp] theorem Part.healthFault_keeps (p : Part) (h : HeadId) (c : HeadCause) :
    (p.healthFault h c).pins = p.pins ∧
      (p.healthFault h c).links = p.links ∧
      (p.healthFault h c).evaluator = p.evaluator ∧
      (p.healthFault h c).tables = p.tables ∧
      (p.healthFault h c).count = p.count ∧
      (p.healthFault h c).image = p.image := by
  unfold Part.healthFault
  (repeat' split) <;> simp

@[simp] theorem Part.healthFault_reads (p : Part) (h : HeadId) (c : HeadCause) :
    (∀ x, (p.healthFault h c).link x = p.link x) ∧
      (p.healthFault h c).activeTable = p.activeTable ∧
      (∀ x, (p.healthFault h c).headCfg x = p.headCfg x) ∧
      (∀ x, (p.healthFault h c).sectionCfg x = p.sectionCfg x) ∧
      (∀ x, (p.healthFault h c).threshold x = p.threshold x) := by
  simp [Part.link, Part.activeTable, Part.headCfg, Part.sectionCfg, Part.threshold]

@[simp] theorem Part.levelsStep_keeps (p : Part) (h : HeadId) (b : Health) :
    (p.levelsStep h b).pins = p.pins ∧
      (p.levelsStep h b).links = p.links ∧
      (p.levelsStep h b).evaluator = p.evaluator ∧
      (p.levelsStep h b).tables = p.tables ∧
      (p.levelsStep h b).count = p.count ∧
      (p.levelsStep h b).image = p.image := by
  simp only [Part.levelsStep]
  (repeat' split) <;> simp

@[simp] theorem Part.levelsStep_reads (p : Part) (h : HeadId) (b : Health) :
    (∀ x, (p.levelsStep h b).link x = p.link x) ∧
      (p.levelsStep h b).activeTable = p.activeTable ∧
      (∀ x, (p.levelsStep h b).headCfg x = p.headCfg x) ∧
      (∀ x, (p.levelsStep h b).sectionCfg x = p.sectionCfg x) ∧
      (∀ x, (p.levelsStep h b).threshold x = p.threshold x) := by
  simp [Part.link, Part.activeTable, Part.headCfg, Part.sectionCfg, Part.threshold]

@[simp] theorem Part.temperatureStep_keeps (p : Part) (h : HeadId) (o : Option Health) (b : Health) :
    (p.temperatureStep h o b).pins = p.pins ∧
      (p.temperatureStep h o b).links = p.links ∧
      (p.temperatureStep h o b).heads = p.heads ∧
      (p.temperatureStep h o b).decoders = p.decoders ∧
      (p.temperatureStep h o b).evaluator = p.evaluator ∧
      (p.temperatureStep h o b).sections = p.sections ∧
      (p.temperatureStep h o b).tables = p.tables ∧
      (p.temperatureStep h o b).count = p.count ∧
      (p.temperatureStep h o b).image = p.image := by
  simp only [Part.temperatureStep]
  (repeat' split) <;> simp

@[simp] theorem Part.temperatureStep_reads (p : Part) (h : HeadId) (o : Option Health) (b : Health) :
    (∀ x, (p.temperatureStep h o b).link x = p.link x) ∧
      (∀ x, (p.temperatureStep h o b).head x = p.head x) ∧
      (∀ x, (p.temperatureStep h o b).decoder x = p.decoder x) ∧
      (∀ x, (p.temperatureStep h o b).sec x = p.sec x) ∧
      (p.temperatureStep h o b).activeTable = p.activeTable ∧
      (∀ x, (p.temperatureStep h o b).headCfg x = p.headCfg x) ∧
      (∀ x, (p.temperatureStep h o b).sectionCfg x = p.sectionCfg x) ∧
      (∀ x, (p.temperatureStep h o b).threshold x = p.threshold x) := by
  simp [Part.link, Part.head, Part.decoder, Part.sec, Part.activeTable, Part.headCfg, Part.sectionCfg, Part.threshold]

@[simp] theorem Part.identityStep_keeps (p : Part) (h : HeadId) (b : Health) :
    (p.identityStep h b).pins = p.pins ∧
      (p.identityStep h b).links = p.links ∧
      (p.identityStep h b).evaluator = p.evaluator ∧
      (p.identityStep h b).tables = p.tables ∧
      (p.identityStep h b).count = p.count ∧
      (p.identityStep h b).image = p.image := by
  simp only [Part.identityStep]
  (repeat' split) <;> simp

@[simp] theorem Part.identityStep_reads (p : Part) (h : HeadId) (b : Health) :
    (∀ x, (p.identityStep h b).link x = p.link x) ∧
      (p.identityStep h b).activeTable = p.activeTable ∧
      (∀ x, (p.identityStep h b).headCfg x = p.headCfg x) ∧
      (∀ x, (p.identityStep h b).sectionCfg x = p.sectionCfg x) ∧
      (∀ x, (p.identityStep h b).threshold x = p.threshold x) := by
  simp [Part.link, Part.activeTable, Part.headCfg, Part.sectionCfg, Part.threshold]

@[simp] theorem Part.healthStep_keeps (p : Part) (h : HeadId) (t : HeadTelegram) :
    (p.healthStep h t).pins = p.pins ∧
      (p.healthStep h t).links = p.links ∧
      (p.healthStep h t).evaluator = p.evaluator ∧
      (p.healthStep h t).tables = p.tables ∧
      (p.healthStep h t).count = p.count ∧
      (p.healthStep h t).image = p.image := by
  simp only [Part.healthStep]
  (repeat' split) <;> simp

@[simp] theorem Part.healthStep_reads (p : Part) (h : HeadId) (t : HeadTelegram) :
    (∀ x, (p.healthStep h t).link x = p.link x) ∧
      (p.healthStep h t).activeTable = p.activeTable ∧
      (∀ x, (p.healthStep h t).headCfg x = p.headCfg x) ∧
      (∀ x, (p.healthStep h t).sectionCfg x = p.sectionCfg x) ∧
      (∀ x, (p.healthStep h t).threshold x = p.threshold x) := by
  simp [Part.link, Part.activeTable, Part.headCfg, Part.sectionCfg, Part.threshold]

@[simp] theorem Part.takeEcho_keeps (p : Part) (l : LinkId) (st : Octet) (e : Echo) :
    (p.takeEcho l st e).pins = p.pins ∧
      (p.takeEcho l st e).heads = p.heads ∧
      (p.takeEcho l st e).decoders = p.decoders ∧
      (p.takeEcho l st e).evaluator = p.evaluator ∧
      (p.takeEcho l st e).sections = p.sections ∧
      (p.takeEcho l st e).tables = p.tables ∧
      (p.takeEcho l st e).count = p.count ∧
      (p.takeEcho l st e).image = p.image := by
  unfold Part.takeEcho
  (repeat' split) <;> simp

@[simp] theorem Part.takeEcho_reads (p : Part) (l : LinkId) (st : Octet) (e : Echo) :
    (∀ x, (p.takeEcho l st e).head x = p.head x) ∧
      (∀ x, (p.takeEcho l st e).decoder x = p.decoder x) ∧
      (∀ x, (p.takeEcho l st e).sec x = p.sec x) ∧
      (p.takeEcho l st e).activeTable = p.activeTable ∧
      (∀ x, (p.takeEcho l st e).headCfg x = p.headCfg x) ∧
      (∀ x, (p.takeEcho l st e).sectionCfg x = p.sectionCfg x) ∧
      (∀ x, (p.takeEcho l st e).threshold x = p.threshold x) := by
  simp [Part.head, Part.decoder, Part.sec, Part.activeTable, Part.headCfg, Part.sectionCfg, Part.threshold]

@[simp] theorem Part.echoStep_keeps (p : Part) (l : LinkId) (t : HeadTelegram) :
    (p.echoStep l t).pins = p.pins ∧
      (p.echoStep l t).heads = p.heads ∧
      (p.echoStep l t).decoders = p.decoders ∧
      (p.echoStep l t).evaluator = p.evaluator ∧
      (p.echoStep l t).sections = p.sections ∧
      (p.echoStep l t).tables = p.tables ∧
      (p.echoStep l t).count = p.count ∧
      (p.echoStep l t).image = p.image := by
  unfold Part.echoStep
  (repeat' split) <;> simp

@[simp] theorem Part.echoStep_reads (p : Part) (l : LinkId) (t : HeadTelegram) :
    (∀ x, (p.echoStep l t).head x = p.head x) ∧
      (∀ x, (p.echoStep l t).decoder x = p.decoder x) ∧
      (∀ x, (p.echoStep l t).sec x = p.sec x) ∧
      (p.echoStep l t).activeTable = p.activeTable ∧
      (∀ x, (p.echoStep l t).headCfg x = p.headCfg x) ∧
      (∀ x, (p.echoStep l t).sectionCfg x = p.sectionCfg x) ∧
      (∀ x, (p.echoStep l t).threshold x = p.threshold x) := by
  simp [Part.head, Part.decoder, Part.sec, Part.activeTable, Part.headCfg, Part.sectionCfg, Part.threshold]

@[simp] theorem Part.baselineStep_keeps (p : Part) (h : HeadId) (t : HeadTelegram) :
    (p.baselineStep h t).pins = p.pins ∧
      (p.baselineStep h t).links = p.links ∧
      (p.baselineStep h t).decoders = p.decoders ∧
      (p.baselineStep h t).evaluator = p.evaluator ∧
      (p.baselineStep h t).sections = p.sections ∧
      (p.baselineStep h t).tables = p.tables ∧
      (p.baselineStep h t).count = p.count ∧
      (p.baselineStep h t).report = p.report ∧
      (p.baselineStep h t).image = p.image := by
  exact ⟨rfl, rfl, rfl, rfl, rfl, rfl, rfl, rfl, rfl⟩

@[simp] theorem Part.baselineStep_reads (p : Part) (h : HeadId) (t : HeadTelegram) :
    (∀ x, (p.baselineStep h t).link x = p.link x) ∧
      (∀ x, (p.baselineStep h t).decoder x = p.decoder x) ∧
      (∀ x, (p.baselineStep h t).sec x = p.sec x) ∧
      (p.baselineStep h t).activeTable = p.activeTable ∧
      (∀ x, (p.baselineStep h t).headCfg x = p.headCfg x) ∧
      (∀ x, (p.baselineStep h t).sectionCfg x = p.sectionCfg x) ∧
      (∀ x, (p.baselineStep h t).threshold x = p.threshold x) := by
  simp [Part.link, Part.decoder, Part.sec, Part.activeTable, Part.headCfg, Part.sectionCfg, Part.threshold]

@[simp] theorem Part.admissionStep_keeps (p : Part) (h : HeadId) :
    (p.admissionStep h).pins = p.pins ∧
      (p.admissionStep h).links = p.links ∧
      (p.admissionStep h).evaluator = p.evaluator ∧
      (p.admissionStep h).sections = p.sections ∧
      (p.admissionStep h).tables = p.tables ∧
      (p.admissionStep h).count = p.count ∧
      (p.admissionStep h).image = p.image := by
  simp only [Part.admissionStep]
  (repeat' split) <;> simp

@[simp] theorem Part.admissionStep_reads (p : Part) (h : HeadId) :
    (∀ x, (p.admissionStep h).link x = p.link x) ∧
      (∀ x, (p.admissionStep h).sec x = p.sec x) ∧
      (p.admissionStep h).activeTable = p.activeTable ∧
      (∀ x, (p.admissionStep h).headCfg x = p.headCfg x) ∧
      (∀ x, (p.admissionStep h).sectionCfg x = p.sectionCfg x) ∧
      (∀ x, (p.admissionStep h).threshold x = p.threshold x) := by
  simp [Part.link, Part.sec, Part.activeTable, Part.headCfg, Part.sectionCfg, Part.threshold]

@[simp] theorem Part.laterSteps_keeps (p : Part) (l : LinkId) (h : HeadId) (t : HeadTelegram) :
    (p.laterSteps l h t).pins = p.pins ∧
      (p.laterSteps l h t).evaluator = p.evaluator ∧
      (p.laterSteps l h t).tables = p.tables ∧
      (p.laterSteps l h t).count = p.count ∧
      (p.laterSteps l h t).image = p.image := by
  simp [Part.laterSteps]

@[simp] theorem Part.laterSteps_reads (p : Part) (l : LinkId) (h : HeadId) (t : HeadTelegram) :
    (p.laterSteps l h t).activeTable = p.activeTable ∧
      (∀ x, (p.laterSteps l h t).headCfg x = p.headCfg x) ∧
      (∀ x, (p.laterSteps l h t).sectionCfg x = p.sectionCfg x) ∧
      (∀ x, (p.laterSteps l h t).threshold x = p.threshold x) := by
  simp [Part.activeTable, Part.headCfg, Part.sectionCfg, Part.threshold]

@[simp] theorem Part.takeTelegram_keeps (p : Part) (l : LinkId) (h : HeadId) (t : HeadTelegram) :
    (p.takeTelegram l h t).1.pins = p.pins ∧
      (p.takeTelegram l h t).1.evaluator = p.evaluator ∧
      (p.takeTelegram l h t).1.tables = p.tables ∧
      (p.takeTelegram l h t).1.count = p.count ∧
      (p.takeTelegram l h t).1.image = p.image := by
  simp only [Part.takeTelegram]
  (repeat' split) <;> simp

@[simp] theorem Part.takeTelegram_reads (p : Part) (l : LinkId) (h : HeadId) (t : HeadTelegram) :
    (p.takeTelegram l h t).1.activeTable = p.activeTable ∧
      (∀ x, (p.takeTelegram l h t).1.headCfg x = p.headCfg x) ∧
      (∀ x, (p.takeTelegram l h t).1.sectionCfg x = p.sectionCfg x) ∧
      (∀ x, (p.takeTelegram l h t).1.threshold x = p.threshold x) := by
  simp [Part.activeTable, Part.headCfg, Part.sectionCfg, Part.threshold]

@[simp] theorem Part.silenceExpiry_keeps (p : Part) (h : HeadId) :
    (p.silenceExpiry h).pins = p.pins ∧
      (p.silenceExpiry h).links = p.links ∧
      (p.silenceExpiry h).evaluator = p.evaluator ∧
      (p.silenceExpiry h).tables = p.tables ∧
      (p.silenceExpiry h).count = p.count ∧
      (p.silenceExpiry h).image = p.image := by
  simp only [Part.silenceExpiry]
  (repeat' split) <;> simp

@[simp] theorem Part.silenceExpiry_reads (p : Part) (h : HeadId) :
    (∀ x, (p.silenceExpiry h).link x = p.link x) ∧
      (p.silenceExpiry h).activeTable = p.activeTable ∧
      (∀ x, (p.silenceExpiry h).headCfg x = p.headCfg x) ∧
      (∀ x, (p.silenceExpiry h).sectionCfg x = p.sectionCfg x) ∧
      (∀ x, (p.silenceExpiry h).threshold x = p.threshold x) := by
  simp [Part.link, Part.activeTable, Part.headCfg, Part.sectionCfg, Part.threshold]

@[simp] theorem Part.loseHead_keeps (p : Part) (h : HeadId) :
    (p.loseHead h).pins = p.pins ∧
      (p.loseHead h).links = p.links ∧
      (p.loseHead h).evaluator = p.evaluator ∧
      (p.loseHead h).tables = p.tables ∧
      (p.loseHead h).count = p.count ∧
      (p.loseHead h).image = p.image := by
  unfold Part.loseHead
  (repeat' split) <;> simp

@[simp] theorem Part.loseHead_reads (p : Part) (h : HeadId) :
    (∀ x, (p.loseHead h).link x = p.link x) ∧
      (p.loseHead h).activeTable = p.activeTable ∧
      (∀ x, (p.loseHead h).headCfg x = p.headCfg x) ∧
      (∀ x, (p.loseHead h).sectionCfg x = p.sectionCfg x) ∧
      (∀ x, (p.loseHead h).threshold x = p.threshold x) := by
  simp [Part.link, Part.activeTable, Part.headCfg, Part.sectionCfg, Part.threshold]

@[simp] theorem Part.loseHeads_keeps (p : Part) (l : LinkId) :
    (p.loseHeads l).pins = p.pins ∧
      (p.loseHeads l).links = p.links ∧
      (p.loseHeads l).evaluator = p.evaluator ∧
      (p.loseHeads l).tables = p.tables ∧
      (p.loseHeads l).count = p.count ∧
      (p.loseHeads l).image = p.image := by
  have k : ((p.loseHeads l).pins, (p.loseHeads l).links, (p.loseHeads l).evaluator, (p.loseHeads l).tables, (p.loseHeads l).count, (p.loseHeads l).image) = (p.pins, p.links, p.evaluator, p.tables, p.count, p.image) := by
    simp only [Part.loseHeads]
    exact foldl_keeps (fun q : Part => (q.pins, q.links, q.evaluator, q.tables, q.count, q.image)) _ (fun q x => by (try split) <;> simp) _ _
  simpa using k

@[simp] theorem Part.loseHeads_reads (p : Part) (l : LinkId) :
    (∀ x, (p.loseHeads l).link x = p.link x) ∧
      (p.loseHeads l).activeTable = p.activeTable ∧
      (∀ x, (p.loseHeads l).headCfg x = p.headCfg x) ∧
      (∀ x, (p.loseHeads l).sectionCfg x = p.sectionCfg x) ∧
      (∀ x, (p.loseHeads l).threshold x = p.threshold x) := by
  simp [Part.link, Part.activeTable, Part.headCfg, Part.sectionCfg, Part.threshold]

@[simp] theorem Part.linkLoss_keeps (p : Part) (l : LinkId) :
    (p.linkLoss l).pins = p.pins ∧
      (p.linkLoss l).evaluator = p.evaluator ∧
      (p.linkLoss l).tables = p.tables ∧
      (p.linkLoss l).count = p.count ∧
      (p.linkLoss l).image = p.image := by
  simp [Part.linkLoss]

@[simp] theorem Part.linkLoss_reads (p : Part) (l : LinkId) :
    (p.linkLoss l).activeTable = p.activeTable ∧
      (∀ x, (p.linkLoss l).headCfg x = p.headCfg x) ∧
      (∀ x, (p.linkLoss l).sectionCfg x = p.sectionCfg x) ∧
      (∀ x, (p.linkLoss l).threshold x = p.threshold x) := by
  simp [Part.activeTable, Part.headCfg, Part.sectionCfg, Part.threshold]

@[simp] theorem Part.badFrame_keeps (p : Part) (l : LinkId) (k : BadFrame) (rx : Rx) :
    (p.badFrame l k rx).pins = p.pins ∧
      (p.badFrame l k rx).evaluator = p.evaluator ∧
      (p.badFrame l k rx).tables = p.tables ∧
      (p.badFrame l k rx).count = p.count ∧
      (p.badFrame l k rx).image = p.image := by
  simp only [Part.badFrame]
  split <;> simp

@[simp] theorem Part.badFrame_reads (p : Part) (l : LinkId) (k : BadFrame) (rx : Rx) :
    (p.badFrame l k rx).activeTable = p.activeTable ∧
      (∀ x, (p.badFrame l k rx).headCfg x = p.headCfg x) ∧
      (∀ x, (p.badFrame l k rx).sectionCfg x = p.sectionCfg x) ∧
      (∀ x, (p.badFrame l k rx).threshold x = p.threshold x) := by
  simp [Part.activeTable, Part.headCfg, Part.sectionCfg, Part.threshold]

@[simp] theorem Part.offerMirror_keeps (p : Part) (l : LinkId) (os : List Octet) :
    (p.offerMirror l os).pins = p.pins ∧
      (p.offerMirror l os).heads = p.heads ∧
      (p.offerMirror l os).decoders = p.decoders ∧
      (p.offerMirror l os).evaluator = p.evaluator ∧
      (p.offerMirror l os).sections = p.sections ∧
      (p.offerMirror l os).tables = p.tables ∧
      (p.offerMirror l os).count = p.count ∧
      (p.offerMirror l os).image = p.image := by
  unfold Part.offerMirror
  (repeat' split) <;> simp

@[simp] theorem Part.offerMirror_reads (p : Part) (l : LinkId) (os : List Octet) :
    (∀ x, (p.offerMirror l os).head x = p.head x) ∧
      (∀ x, (p.offerMirror l os).decoder x = p.decoder x) ∧
      (∀ x, (p.offerMirror l os).sec x = p.sec x) ∧
      (p.offerMirror l os).activeTable = p.activeTable ∧
      (∀ x, (p.offerMirror l os).headCfg x = p.headCfg x) ∧
      (∀ x, (p.offerMirror l os).sectionCfg x = p.sectionCfg x) ∧
      (∀ x, (p.offerMirror l os).threshold x = p.threshold x) := by
  simp [Part.head, Part.decoder, Part.sec, Part.activeTable, Part.headCfg, Part.sectionCfg, Part.threshold]

@[simp] theorem Part.mappedTelegram_keeps (p : Part) (l : LinkId) (h : HeadId) (t : HeadTelegram) (os : List Octet) :
    (p.mappedTelegram l h t os).pins = p.pins ∧
      (p.mappedTelegram l h t os).evaluator = p.evaluator ∧
      (p.mappedTelegram l h t os).tables = p.tables ∧
      (p.mappedTelegram l h t os).count = p.count ∧
      (p.mappedTelegram l h t os).image = p.image := by
  simp only [Part.mappedTelegram]
  (repeat' split) <;> simp

@[simp] theorem Part.mappedTelegram_reads (p : Part) (l : LinkId) (h : HeadId) (t : HeadTelegram) (os : List Octet) :
    (p.mappedTelegram l h t os).activeTable = p.activeTable ∧
      (∀ x, (p.mappedTelegram l h t os).headCfg x = p.headCfg x) ∧
      (∀ x, (p.mappedTelegram l h t os).sectionCfg x = p.sectionCfg x) ∧
      (∀ x, (p.mappedTelegram l h t os).threshold x = p.threshold x) := by
  simp [Part.activeTable, Part.headCfg, Part.sectionCfg, Part.threshold]

@[simp] theorem Part.lockedTelegram_keeps (p : Part) (l : LinkId) (os : List Octet) :
    (p.lockedTelegram l os).pins = p.pins ∧
      (p.lockedTelegram l os).evaluator = p.evaluator ∧
      (p.lockedTelegram l os).tables = p.tables ∧
      (p.lockedTelegram l os).count = p.count ∧
      (p.lockedTelegram l os).image = p.image := by
  unfold Part.lockedTelegram
  (repeat' split) <;> simp

@[simp] theorem Part.lockedTelegram_reads (p : Part) (l : LinkId) (os : List Octet) :
    (p.lockedTelegram l os).activeTable = p.activeTable ∧
      (∀ x, (p.lockedTelegram l os).headCfg x = p.headCfg x) ∧
      (∀ x, (p.lockedTelegram l os).sectionCfg x = p.sectionCfg x) ∧
      (∀ x, (p.lockedTelegram l os).threshold x = p.threshold x) := by
  simp [Part.activeTable, Part.headCfg, Part.sectionCfg, Part.threshold]

@[simp] theorem Part.lock_keeps (p : Part) (l : LinkId) (pol : Polarity) (os : List Octet) :
    (p.lock l pol os).pins = p.pins ∧
      (p.lock l pol os).evaluator = p.evaluator ∧
      (p.lock l pol os).tables = p.tables ∧
      (p.lock l pol os).count = p.count ∧
      (p.lock l pol os).image = p.image := by
  simp [Part.lock]

@[simp] theorem Part.lock_reads (p : Part) (l : LinkId) (pol : Polarity) (os : List Octet) :
    (p.lock l pol os).activeTable = p.activeTable ∧
      (∀ x, (p.lock l pol os).headCfg x = p.headCfg x) ∧
      (∀ x, (p.lock l pol os).sectionCfg x = p.sectionCfg x) ∧
      (∀ x, (p.lock l pol os).threshold x = p.threshold x) := by
  simp [Part.activeTable, Part.headCfg, Part.sectionCfg, Part.threshold]

@[simp] theorem Part.searchOctet_keeps (p : Part) (l : LinkId) (c : Option (Polarity × List Octet)) (o : Octet) :
    (p.searchOctet l c o).pins = p.pins ∧
      (p.searchOctet l c o).evaluator = p.evaluator ∧
      (p.searchOctet l c o).tables = p.tables ∧
      (p.searchOctet l c o).count = p.count ∧
      (p.searchOctet l c o).image = p.image := by
  simp only [Part.searchOctet]
  (repeat' split) <;> simp

@[simp] theorem Part.searchOctet_reads (p : Part) (l : LinkId) (c : Option (Polarity × List Octet)) (o : Octet) :
    (p.searchOctet l c o).activeTable = p.activeTable ∧
      (∀ x, (p.searchOctet l c o).headCfg x = p.headCfg x) ∧
      (∀ x, (p.searchOctet l c o).sectionCfg x = p.sectionCfg x) ∧
      (∀ x, (p.searchOctet l c o).threshold x = p.threshold x) := by
  simp [Part.activeTable, Part.headCfg, Part.sectionCfg, Part.threshold]

@[simp] theorem Part.lockedOctet_keeps (p : Part) (l : LinkId) (rx : Rx) (o : Octet) :
    (p.lockedOctet l rx o).pins = p.pins ∧
      (p.lockedOctet l rx o).evaluator = p.evaluator ∧
      (p.lockedOctet l rx o).tables = p.tables ∧
      (p.lockedOctet l rx o).count = p.count ∧
      (p.lockedOctet l rx o).image = p.image := by
  simp only [Part.lockedOctet]
  (repeat' split) <;> simp

@[simp] theorem Part.lockedOctet_reads (p : Part) (l : LinkId) (rx : Rx) (o : Octet) :
    (p.lockedOctet l rx o).activeTable = p.activeTable ∧
      (∀ x, (p.lockedOctet l rx o).headCfg x = p.headCfg x) ∧
      (∀ x, (p.lockedOctet l rx o).sectionCfg x = p.sectionCfg x) ∧
      (∀ x, (p.lockedOctet l rx o).threshold x = p.threshold x) := by
  simp [Part.activeTable, Part.headCfg, Part.sectionCfg, Part.threshold]

@[simp] theorem Part.linkOctet_keeps (p : Part) (l : LinkId) (o : Octet) :
    (p.linkOctet l o).pins = p.pins ∧
      (p.linkOctet l o).evaluator = p.evaluator ∧
      (p.linkOctet l o).tables = p.tables ∧
      (p.linkOctet l o).count = p.count ∧
      (p.linkOctet l o).image = p.image := by
  simp only [Part.linkOctet]
  (repeat' split) <;> simp

@[simp] theorem Part.linkOctet_reads (p : Part) (l : LinkId) (o : Octet) :
    (p.linkOctet l o).activeTable = p.activeTable ∧
      (∀ x, (p.linkOctet l o).headCfg x = p.headCfg x) ∧
      (∀ x, (p.linkOctet l o).sectionCfg x = p.sectionCfg x) ∧
      (∀ x, (p.linkOctet l o).threshold x = p.threshold x) := by
  simp [Part.activeTable, Part.headCfg, Part.sectionCfg, Part.threshold]

@[simp] theorem Part.linkCharTimeout_keeps (p : Part) (l : LinkId) :
    (p.linkCharTimeout l).pins = p.pins ∧
      (p.linkCharTimeout l).evaluator = p.evaluator ∧
      (p.linkCharTimeout l).tables = p.tables ∧
      (p.linkCharTimeout l).count = p.count ∧
      (p.linkCharTimeout l).image = p.image := by
  unfold Part.linkCharTimeout
  (repeat' split) <;> simp

@[simp] theorem Part.linkCharTimeout_reads (p : Part) (l : LinkId) :
    (p.linkCharTimeout l).activeTable = p.activeTable ∧
      (∀ x, (p.linkCharTimeout l).headCfg x = p.headCfg x) ∧
      (∀ x, (p.linkCharTimeout l).sectionCfg x = p.sectionCfg x) ∧
      (∀ x, (p.linkCharTimeout l).threshold x = p.threshold x) := by
  simp [Part.activeTable, Part.headCfg, Part.sectionCfg, Part.threshold]

@[simp] theorem Part.linkCharWait_keeps (p : Part) (l : LinkId) :
    (p.linkCharWait l).pins = p.pins ∧
      (p.linkCharWait l).evaluator = p.evaluator ∧
      (p.linkCharWait l).tables = p.tables ∧
      (p.linkCharWait l).count = p.count ∧
      (p.linkCharWait l).image = p.image := by
  unfold Part.linkCharWait
  (repeat' split) <;> simp

@[simp] theorem Part.linkCharWait_reads (p : Part) (l : LinkId) :
    (p.linkCharWait l).activeTable = p.activeTable ∧
      (∀ x, (p.linkCharWait l).headCfg x = p.headCfg x) ∧
      (∀ x, (p.linkCharWait l).sectionCfg x = p.sectionCfg x) ∧
      (∀ x, (p.linkCharWait l).threshold x = p.threshold x) := by
  simp [Part.activeTable, Part.headCfg, Part.sectionCfg, Part.threshold]

@[simp] theorem Part.linkQuiet_keeps (p : Part) (l : LinkId) :
    (p.linkQuiet l).pins = p.pins ∧
      (p.linkQuiet l).evaluator = p.evaluator ∧
      (p.linkQuiet l).tables = p.tables ∧
      (p.linkQuiet l).count = p.count ∧
      (p.linkQuiet l).image = p.image := by
  simp only [Part.linkQuiet]
  (repeat' split) <;> simp

@[simp] theorem Part.linkQuiet_reads (p : Part) (l : LinkId) :
    (p.linkQuiet l).activeTable = p.activeTable ∧
      (∀ x, (p.linkQuiet l).headCfg x = p.headCfg x) ∧
      (∀ x, (p.linkQuiet l).sectionCfg x = p.sectionCfg x) ∧
      (∀ x, (p.linkQuiet l).threshold x = p.threshold x) := by
  simp [Part.activeTable, Part.headCfg, Part.sectionCfg, Part.threshold]

@[simp] theorem Part.relayStart_keeps (p : Part) (l : LinkId) :
    (p.relayStart l).pins = p.pins ∧
      (p.relayStart l).heads = p.heads ∧
      (p.relayStart l).decoders = p.decoders ∧
      (p.relayStart l).evaluator = p.evaluator ∧
      (p.relayStart l).sections = p.sections ∧
      (p.relayStart l).tables = p.tables ∧
      (p.relayStart l).count = p.count ∧
      (p.relayStart l).report = p.report ∧
      (p.relayStart l).image = p.image := by
  simp only [Part.relayStart]
  (repeat' split) <;> simp

@[simp] theorem Part.relayStart_reads (p : Part) (l : LinkId) :
    (∀ x, (p.relayStart l).head x = p.head x) ∧
      (∀ x, (p.relayStart l).decoder x = p.decoder x) ∧
      (∀ x, (p.relayStart l).sec x = p.sec x) ∧
      (p.relayStart l).activeTable = p.activeTable ∧
      (∀ x, (p.relayStart l).headCfg x = p.headCfg x) ∧
      (∀ x, (p.relayStart l).sectionCfg x = p.sectionCfg x) ∧
      (∀ x, (p.relayStart l).threshold x = p.threshold x) := by
  simp [Part.head, Part.decoder, Part.sec, Part.activeTable, Part.headCfg, Part.sectionCfg, Part.threshold]

@[simp] theorem Part.relaySent_keeps (p : Part) (l : LinkId) :
    (p.relaySent l).pins = p.pins ∧
      (p.relaySent l).heads = p.heads ∧
      (p.relaySent l).decoders = p.decoders ∧
      (p.relaySent l).evaluator = p.evaluator ∧
      (p.relaySent l).sections = p.sections ∧
      (p.relaySent l).tables = p.tables ∧
      (p.relaySent l).count = p.count ∧
      (p.relaySent l).image = p.image := by
  simp only [Part.relaySent]
  (repeat' split) <;> simp

@[simp] theorem Part.relaySent_reads (p : Part) (l : LinkId) :
    (∀ x, (p.relaySent l).head x = p.head x) ∧
      (∀ x, (p.relaySent l).decoder x = p.decoder x) ∧
      (∀ x, (p.relaySent l).sec x = p.sec x) ∧
      (p.relaySent l).activeTable = p.activeTable ∧
      (∀ x, (p.relaySent l).headCfg x = p.headCfg x) ∧
      (∀ x, (p.relaySent l).sectionCfg x = p.sectionCfg x) ∧
      (∀ x, (p.relaySent l).threshold x = p.threshold x) := by
  simp [Part.head, Part.decoder, Part.sec, Part.activeTable, Part.headCfg, Part.sectionCfg, Part.threshold]

@[simp] theorem Part.relayEnd_keeps (p : Part) (l : LinkId) :
    (p.relayEnd l).pins = p.pins ∧
      (p.relayEnd l).heads = p.heads ∧
      (p.relayEnd l).decoders = p.decoders ∧
      (p.relayEnd l).evaluator = p.evaluator ∧
      (p.relayEnd l).sections = p.sections ∧
      (p.relayEnd l).tables = p.tables ∧
      (p.relayEnd l).count = p.count ∧
      (p.relayEnd l).image = p.image := by
  simp only [Part.relayEnd]
  (repeat' split) <;> simp

@[simp] theorem Part.relayEnd_reads (p : Part) (l : LinkId) :
    (∀ x, (p.relayEnd l).head x = p.head x) ∧
      (∀ x, (p.relayEnd l).decoder x = p.decoder x) ∧
      (∀ x, (p.relayEnd l).sec x = p.sec x) ∧
      (p.relayEnd l).activeTable = p.activeTable ∧
      (∀ x, (p.relayEnd l).headCfg x = p.headCfg x) ∧
      (∀ x, (p.relayEnd l).sectionCfg x = p.sectionCfg x) ∧
      (∀ x, (p.relayEnd l).threshold x = p.threshold x) := by
  simp [Part.head, Part.decoder, Part.sec, Part.activeTable, Part.headCfg, Part.sectionCfg, Part.threshold]

@[simp] theorem Part.relayExpiry_keeps (p : Part) (l : LinkId) :
    (p.relayExpiry l).pins = p.pins ∧
      (p.relayExpiry l).heads = p.heads ∧
      (p.relayExpiry l).decoders = p.decoders ∧
      (p.relayExpiry l).evaluator = p.evaluator ∧
      (p.relayExpiry l).sections = p.sections ∧
      (p.relayExpiry l).tables = p.tables ∧
      (p.relayExpiry l).count = p.count ∧
      (p.relayExpiry l).image = p.image := by
  unfold Part.relayExpiry
  (repeat' split) <;> simp

@[simp] theorem Part.relayExpiry_reads (p : Part) (l : LinkId) :
    (∀ x, (p.relayExpiry l).head x = p.head x) ∧
      (∀ x, (p.relayExpiry l).decoder x = p.decoder x) ∧
      (∀ x, (p.relayExpiry l).sec x = p.sec x) ∧
      (p.relayExpiry l).activeTable = p.activeTable ∧
      (∀ x, (p.relayExpiry l).headCfg x = p.headCfg x) ∧
      (∀ x, (p.relayExpiry l).sectionCfg x = p.sectionCfg x) ∧
      (∀ x, (p.relayExpiry l).threshold x = p.threshold x) := by
  simp [Part.head, Part.decoder, Part.sec, Part.activeTable, Part.headCfg, Part.sectionCfg, Part.threshold]

@[simp] theorem Part.clearHead_keeps (p : Part) (h : HeadId) :
    (p.clearHead h).pins = p.pins ∧
      (p.clearHead h).links = p.links ∧
      (p.clearHead h).evaluator = p.evaluator ∧
      (p.clearHead h).sections = p.sections ∧
      (p.clearHead h).tables = p.tables ∧
      (p.clearHead h).count = p.count ∧
      (p.clearHead h).report = p.report ∧
      (p.clearHead h).image = p.image := by
  exact ⟨rfl, rfl, rfl, rfl, rfl, rfl, rfl, rfl⟩

@[simp] theorem Part.clearHead_reads (p : Part) (h : HeadId) :
    (∀ x, (p.clearHead h).link x = p.link x) ∧
      (∀ x, (p.clearHead h).sec x = p.sec x) ∧
      (p.clearHead h).activeTable = p.activeTable ∧
      (∀ x, (p.clearHead h).headCfg x = p.headCfg x) ∧
      (∀ x, (p.clearHead h).sectionCfg x = p.sectionCfg x) ∧
      (∀ x, (p.clearHead h).threshold x = p.threshold x) := by
  simp [Part.link, Part.sec, Part.activeTable, Part.headCfg, Part.sectionCfg, Part.threshold]

@[simp] theorem Part.activateHeads_keeps (p : Part) (o n : Table) :
    (p.activateHeads o n).pins = p.pins ∧
      (p.activateHeads o n).links = p.links ∧
      (p.activateHeads o n).evaluator = p.evaluator ∧
      (p.activateHeads o n).sections = p.sections ∧
      (p.activateHeads o n).tables = p.tables ∧
      (p.activateHeads o n).count = p.count ∧
      (p.activateHeads o n).report = p.report ∧
      (p.activateHeads o n).image = p.image := by
  have k : ((p.activateHeads o n).pins, (p.activateHeads o n).links, (p.activateHeads o n).evaluator, (p.activateHeads o n).sections, (p.activateHeads o n).tables, (p.activateHeads o n).count, (p.activateHeads o n).report, (p.activateHeads o n).image) = (p.pins, p.links, p.evaluator, p.sections, p.tables, p.count, p.report, p.image) := by
    simp only [Part.activateHeads]
    exact foldl_keeps (fun q : Part => (q.pins, q.links, q.evaluator, q.sections, q.tables, q.count, q.report, q.image)) _ (fun q x => by (try split) <;> simp) _ _
  simpa using k

@[simp] theorem Part.activateHeads_reads (p : Part) (o n : Table) :
    (∀ x, (p.activateHeads o n).link x = p.link x) ∧
      (∀ x, (p.activateHeads o n).sec x = p.sec x) ∧
      (p.activateHeads o n).activeTable = p.activeTable ∧
      (∀ x, (p.activateHeads o n).headCfg x = p.headCfg x) ∧
      (∀ x, (p.activateHeads o n).sectionCfg x = p.sectionCfg x) ∧
      (∀ x, (p.activateHeads o n).threshold x = p.threshold x) := by
  simp [Part.link, Part.sec, Part.activeTable, Part.headCfg, Part.sectionCfg, Part.threshold]

@[simp] theorem Part.activateRelays_keeps (p : Part) (o n : Table) :
    (p.activateRelays o n).pins = p.pins ∧
      (p.activateRelays o n).heads = p.heads ∧
      (p.activateRelays o n).decoders = p.decoders ∧
      (p.activateRelays o n).evaluator = p.evaluator ∧
      (p.activateRelays o n).sections = p.sections ∧
      (p.activateRelays o n).tables = p.tables ∧
      (p.activateRelays o n).count = p.count ∧
      (p.activateRelays o n).image = p.image := by
  have k : ((p.activateRelays o n).pins, (p.activateRelays o n).heads, (p.activateRelays o n).decoders, (p.activateRelays o n).evaluator, (p.activateRelays o n).sections, (p.activateRelays o n).tables, (p.activateRelays o n).count, (p.activateRelays o n).image) = (p.pins, p.heads, p.decoders, p.evaluator, p.sections, p.tables, p.count, p.image) := by
    simp only [Part.activateRelays]
    exact foldl_keeps (fun q : Part => (q.pins, q.heads, q.decoders, q.evaluator, q.sections, q.tables, q.count, q.image)) _ (fun q x => by (try split) <;> simp) _ _
  simpa using k

@[simp] theorem Part.activateRelays_reads (p : Part) (o n : Table) :
    (∀ x, (p.activateRelays o n).head x = p.head x) ∧
      (∀ x, (p.activateRelays o n).decoder x = p.decoder x) ∧
      (∀ x, (p.activateRelays o n).sec x = p.sec x) ∧
      (p.activateRelays o n).activeTable = p.activeTable ∧
      (∀ x, (p.activateRelays o n).headCfg x = p.headCfg x) ∧
      (∀ x, (p.activateRelays o n).sectionCfg x = p.sectionCfg x) ∧
      (∀ x, (p.activateRelays o n).threshold x = p.threshold x) := by
  simp [Part.head, Part.decoder, Part.sec, Part.activeTable, Part.headCfg, Part.sectionCfg, Part.threshold]

@[simp] theorem Part.activateSection_keeps (p : Part) (o n : Table) (i : SectionId) :
    (p.activateSection o n i).pins = p.pins ∧
      (p.activateSection o n i).links = p.links ∧
      (p.activateSection o n i).heads = p.heads ∧
      (p.activateSection o n i).decoders = p.decoders ∧
      (p.activateSection o n i).evaluator = p.evaluator ∧
      (p.activateSection o n i).tables = p.tables ∧
      (p.activateSection o n i).count = p.count ∧
      (p.activateSection o n i).image = p.image := by
  unfold Part.activateSection
  (repeat' split) <;> simp

@[simp] theorem Part.activateSection_reads (p : Part) (o n : Table) (i : SectionId) :
    (∀ x, (p.activateSection o n i).link x = p.link x) ∧
      (∀ x, (p.activateSection o n i).head x = p.head x) ∧
      (∀ x, (p.activateSection o n i).decoder x = p.decoder x) ∧
      (p.activateSection o n i).activeTable = p.activeTable ∧
      (∀ x, (p.activateSection o n i).headCfg x = p.headCfg x) ∧
      (∀ x, (p.activateSection o n i).sectionCfg x = p.sectionCfg x) ∧
      (∀ x, (p.activateSection o n i).threshold x = p.threshold x) := by
  simp [Part.link, Part.head, Part.decoder, Part.activeTable, Part.headCfg, Part.sectionCfg, Part.threshold]

@[simp] theorem Part.activateSections_keeps (p : Part) (o n : Table) :
    (p.activateSections o n).pins = p.pins ∧
      (p.activateSections o n).links = p.links ∧
      (p.activateSections o n).heads = p.heads ∧
      (p.activateSections o n).decoders = p.decoders ∧
      (p.activateSections o n).evaluator = p.evaluator ∧
      (p.activateSections o n).tables = p.tables ∧
      (p.activateSections o n).count = p.count ∧
      (p.activateSections o n).image = p.image := by
  have k : ((p.activateSections o n).pins, (p.activateSections o n).links, (p.activateSections o n).heads, (p.activateSections o n).decoders, (p.activateSections o n).evaluator, (p.activateSections o n).tables, (p.activateSections o n).count, (p.activateSections o n).image) = (p.pins, p.links, p.heads, p.decoders, p.evaluator, p.tables, p.count, p.image) := by
    simp only [Part.activateSections]
    exact foldl_keeps (fun q : Part => (q.pins, q.links, q.heads, q.decoders, q.evaluator, q.tables, q.count, q.image)) _ (fun q x => by (try split) <;> simp) _ _
  simpa using k

@[simp] theorem Part.activateSections_reads (p : Part) (o n : Table) :
    (∀ x, (p.activateSections o n).link x = p.link x) ∧
      (∀ x, (p.activateSections o n).head x = p.head x) ∧
      (∀ x, (p.activateSections o n).decoder x = p.decoder x) ∧
      (p.activateSections o n).activeTable = p.activeTable ∧
      (∀ x, (p.activateSections o n).headCfg x = p.headCfg x) ∧
      (∀ x, (p.activateSections o n).sectionCfg x = p.sectionCfg x) ∧
      (∀ x, (p.activateSections o n).threshold x = p.threshold x) := by
  simp [Part.link, Part.head, Part.decoder, Part.activeTable, Part.headCfg, Part.sectionCfg, Part.threshold]

@[simp] theorem Part.activateLink_keeps (p : Part) (o n : Table) (l : LinkId) :
    (p.activateLink o n l).pins = p.pins ∧
      (p.activateLink o n l).heads = p.heads ∧
      (p.activateLink o n l).decoders = p.decoders ∧
      (p.activateLink o n l).evaluator = p.evaluator ∧
      (p.activateLink o n l).sections = p.sections ∧
      (p.activateLink o n l).tables = p.tables ∧
      (p.activateLink o n l).count = p.count ∧
      (p.activateLink o n l).report = p.report ∧
      (p.activateLink o n l).image = p.image := by
  unfold Part.activateLink
  (repeat' split) <;> simp

@[simp] theorem Part.activateLink_reads (p : Part) (o n : Table) (l : LinkId) :
    (∀ x, (p.activateLink o n l).head x = p.head x) ∧
      (∀ x, (p.activateLink o n l).decoder x = p.decoder x) ∧
      (∀ x, (p.activateLink o n l).sec x = p.sec x) ∧
      (p.activateLink o n l).activeTable = p.activeTable ∧
      (∀ x, (p.activateLink o n l).headCfg x = p.headCfg x) ∧
      (∀ x, (p.activateLink o n l).sectionCfg x = p.sectionCfg x) ∧
      (∀ x, (p.activateLink o n l).threshold x = p.threshold x) := by
  simp [Part.head, Part.decoder, Part.sec, Part.activeTable, Part.headCfg, Part.sectionCfg, Part.threshold]

@[simp] theorem Part.activateLinks_keeps (p : Part) (o n : Table) :
    (p.activateLinks o n).pins = p.pins ∧
      (p.activateLinks o n).heads = p.heads ∧
      (p.activateLinks o n).decoders = p.decoders ∧
      (p.activateLinks o n).evaluator = p.evaluator ∧
      (p.activateLinks o n).sections = p.sections ∧
      (p.activateLinks o n).tables = p.tables ∧
      (p.activateLinks o n).count = p.count ∧
      (p.activateLinks o n).report = p.report ∧
      (p.activateLinks o n).image = p.image := by
  have k : ((p.activateLinks o n).pins, (p.activateLinks o n).heads, (p.activateLinks o n).decoders, (p.activateLinks o n).evaluator, (p.activateLinks o n).sections, (p.activateLinks o n).tables, (p.activateLinks o n).count, (p.activateLinks o n).report, (p.activateLinks o n).image) = (p.pins, p.heads, p.decoders, p.evaluator, p.sections, p.tables, p.count, p.report, p.image) := by
    simp only [Part.activateLinks]
    exact foldl_keeps (fun q : Part => (q.pins, q.heads, q.decoders, q.evaluator, q.sections, q.tables, q.count, q.report, q.image)) _ (fun q x => by (try split) <;> simp) _ _
  simpa using k

@[simp] theorem Part.activateLinks_reads (p : Part) (o n : Table) :
    (∀ x, (p.activateLinks o n).head x = p.head x) ∧
      (∀ x, (p.activateLinks o n).decoder x = p.decoder x) ∧
      (∀ x, (p.activateLinks o n).sec x = p.sec x) ∧
      (p.activateLinks o n).activeTable = p.activeTable ∧
      (∀ x, (p.activateLinks o n).headCfg x = p.headCfg x) ∧
      (∀ x, (p.activateLinks o n).sectionCfg x = p.sectionCfg x) ∧
      (∀ x, (p.activateLinks o n).threshold x = p.threshold x) := by
  simp [Part.head, Part.decoder, Part.sec, Part.activeTable, Part.headCfg, Part.sectionCfg, Part.threshold]

@[simp] theorem Part.activateRest_keeps (p : Part) (n : ActiveTable) (k : Nat) :
    (p.activateRest n k).pins = p.pins ∧
      (p.activateRest n k).links = p.links ∧
      (p.activateRest n k).heads = p.heads ∧
      (p.activateRest n k).decoders = p.decoders ∧
      (p.activateRest n k).sections = p.sections ∧
      (p.activateRest n k).tables = p.tables ∧
      (p.activateRest n k).count = p.count ∧
      (p.activateRest n k).image = p.image := by
  simp only [Part.activateRest]
  split <;> simp

@[simp] theorem Part.activateRest_reads (p : Part) (n : ActiveTable) (k : Nat) :
    (∀ x, (p.activateRest n k).link x = p.link x) ∧
      (∀ x, (p.activateRest n k).head x = p.head x) ∧
      (∀ x, (p.activateRest n k).decoder x = p.decoder x) ∧
      (∀ x, (p.activateRest n k).sec x = p.sec x) ∧
      (p.activateRest n k).activeTable = p.activeTable ∧
      (∀ x, (p.activateRest n k).headCfg x = p.headCfg x) ∧
      (∀ x, (p.activateRest n k).sectionCfg x = p.sectionCfg x) ∧
      (∀ x, (p.activateRest n k).threshold x = p.threshold x) := by
  simp [Part.link, Part.head, Part.decoder, Part.sec, Part.activeTable, Part.headCfg, Part.sectionCfg, Part.threshold]

@[simp] theorem Part.finishStore_keeps (p : Part) (k : StoreKind) (r : StoreResult) (i : Image) (st : ImageState) (c : Option Crc) :
    (p.finishStore k r i st c).pins = p.pins ∧
      (p.finishStore k r i st c).links = p.links ∧
      (p.finishStore k r i st c).heads = p.heads ∧
      (p.finishStore k r i st c).decoders = p.decoders ∧
      (p.finishStore k r i st c).evaluator = p.evaluator ∧
      (p.finishStore k r i st c).sections = p.sections ∧
      (p.finishStore k r i st c).tables = p.tables ∧
      (p.finishStore k r i st c).count = p.count := by
  exact ⟨rfl, rfl, rfl, rfl, rfl, rfl, rfl, rfl⟩

@[simp] theorem Part.finishStore_reads (p : Part) (k : StoreKind) (r : StoreResult) (i : Image) (st : ImageState) (c : Option Crc) :
    (∀ x, (p.finishStore k r i st c).link x = p.link x) ∧
      (∀ x, (p.finishStore k r i st c).head x = p.head x) ∧
      (∀ x, (p.finishStore k r i st c).decoder x = p.decoder x) ∧
      (∀ x, (p.finishStore k r i st c).sec x = p.sec x) ∧
      (p.finishStore k r i st c).activeTable = p.activeTable ∧
      (∀ x, (p.finishStore k r i st c).headCfg x = p.headCfg x) ∧
      (∀ x, (p.finishStore k r i st c).sectionCfg x = p.sectionCfg x) ∧
      (∀ x, (p.finishStore k r i st c).threshold x = p.threshold x) := by
  simp [Part.link, Part.head, Part.decoder, Part.sec, Part.activeTable, Part.headCfg, Part.sectionCfg, Part.threshold]

@[simp] theorem Part.verify_keeps (p : Part) (k : StoreKind) (w : ImageBody) (r : Table) (m : Marker) (st : ImageState) :
    (p.verify k w r m st).pins = p.pins ∧
      (p.verify k w r m st).links = p.links ∧
      (p.verify k w r m st).heads = p.heads ∧
      (p.verify k w r m st).decoders = p.decoders ∧
      (p.verify k w r m st).evaluator = p.evaluator ∧
      (p.verify k w r m st).sections = p.sections ∧
      (p.verify k w r m st).tables = p.tables ∧
      (p.verify k w r m st).count = p.count := by
  unfold Part.verify
  (repeat' split) <;> simp

@[simp] theorem Part.verify_reads (p : Part) (k : StoreKind) (w : ImageBody) (r : Table) (m : Marker) (st : ImageState) :
    (∀ x, (p.verify k w r m st).link x = p.link x) ∧
      (∀ x, (p.verify k w r m st).head x = p.head x) ∧
      (∀ x, (p.verify k w r m st).decoder x = p.decoder x) ∧
      (∀ x, (p.verify k w r m st).sec x = p.sec x) ∧
      (p.verify k w r m st).activeTable = p.activeTable ∧
      (∀ x, (p.verify k w r m st).headCfg x = p.headCfg x) ∧
      (∀ x, (p.verify k w r m st).sectionCfg x = p.sectionCfg x) ∧
      (∀ x, (p.verify k w r m st).threshold x = p.threshold x) := by
  simp [Part.link, Part.head, Part.decoder, Part.sec, Part.activeTable, Part.headCfg, Part.sectionCfg, Part.threshold]

@[simp] theorem Part.writeCompletion_keeps (p : Part) (t : Option Table) :
    (p.writeCompletion t).pins = p.pins ∧
      (p.writeCompletion t).links = p.links ∧
      (p.writeCompletion t).heads = p.heads ∧
      (p.writeCompletion t).decoders = p.decoders ∧
      (p.writeCompletion t).evaluator = p.evaluator ∧
      (p.writeCompletion t).sections = p.sections ∧
      (p.writeCompletion t).tables = p.tables ∧
      (p.writeCompletion t).count = p.count := by
  unfold Part.writeCompletion
  (repeat' split) <;> simp

@[simp] theorem Part.writeCompletion_reads (p : Part) (t : Option Table) :
    (∀ x, (p.writeCompletion t).link x = p.link x) ∧
      (∀ x, (p.writeCompletion t).head x = p.head x) ∧
      (∀ x, (p.writeCompletion t).decoder x = p.decoder x) ∧
      (∀ x, (p.writeCompletion t).sec x = p.sec x) ∧
      (p.writeCompletion t).activeTable = p.activeTable ∧
      (∀ x, (p.writeCompletion t).headCfg x = p.headCfg x) ∧
      (∀ x, (p.writeCompletion t).sectionCfg x = p.sectionCfg x) ∧
      (∀ x, (p.writeCompletion t).threshold x = p.threshold x) := by
  simp [Part.link, Part.head, Part.decoder, Part.sec, Part.activeTable, Part.headCfg, Part.sectionCfg, Part.threshold]

@[simp] theorem Part.storeExpiry_keeps (p : Part) :
    (p.storeExpiry).pins = p.pins ∧
      (p.storeExpiry).links = p.links ∧
      (p.storeExpiry).heads = p.heads ∧
      (p.storeExpiry).decoders = p.decoders ∧
      (p.storeExpiry).evaluator = p.evaluator ∧
      (p.storeExpiry).sections = p.sections ∧
      (p.storeExpiry).tables = p.tables ∧
      (p.storeExpiry).count = p.count := by
  unfold Part.storeExpiry
  (repeat' split) <;> simp

@[simp] theorem Part.storeExpiry_reads (p : Part) :
    (∀ x, (p.storeExpiry).link x = p.link x) ∧
      (∀ x, (p.storeExpiry).head x = p.head x) ∧
      (∀ x, (p.storeExpiry).decoder x = p.decoder x) ∧
      (∀ x, (p.storeExpiry).sec x = p.sec x) ∧
      (p.storeExpiry).activeTable = p.activeTable ∧
      (∀ x, (p.storeExpiry).headCfg x = p.headCfg x) ∧
      (∀ x, (p.storeExpiry).sectionCfg x = p.sectionCfg x) ∧
      (∀ x, (p.storeExpiry).threshold x = p.threshold x) := by
  simp [Part.link, Part.head, Part.decoder, Part.sec, Part.activeTable, Part.headCfg, Part.sectionCfg, Part.threshold]

@[simp] theorem Part.cycleExpiry_keeps (p : Part) :
    (p.cycleExpiry).pins = p.pins ∧
      (p.cycleExpiry).links = p.links ∧
      (p.cycleExpiry).heads = p.heads ∧
      (p.cycleExpiry).decoders = p.decoders ∧
      (p.cycleExpiry).evaluator = p.evaluator ∧
      (p.cycleExpiry).sections = p.sections ∧
      (p.cycleExpiry).tables = p.tables ∧
      (p.cycleExpiry).count = p.count ∧
      (p.cycleExpiry).image = p.image := by
  have k : ((p.cycleExpiry).pins, (p.cycleExpiry).links, (p.cycleExpiry).heads, (p.cycleExpiry).decoders, (p.cycleExpiry).evaluator, (p.cycleExpiry).sections, (p.cycleExpiry).tables, (p.cycleExpiry).count, (p.cycleExpiry).image) = (p.pins, p.links, p.heads, p.decoders, p.evaluator, p.sections, p.tables, p.count, p.image) := by
    unfold Part.cycleExpiry
    split
    · rfl
    · exact foldl_keeps (fun q : Part => (q.pins, q.links, q.heads, q.decoders, q.evaluator, q.sections, q.tables, q.count, q.image)) _ (fun q x => by simp) _ _
  simpa using k

@[simp] theorem Part.cycleExpiry_reads (p : Part) :
    (∀ x, (p.cycleExpiry).link x = p.link x) ∧
      (∀ x, (p.cycleExpiry).head x = p.head x) ∧
      (∀ x, (p.cycleExpiry).decoder x = p.decoder x) ∧
      (∀ x, (p.cycleExpiry).sec x = p.sec x) ∧
      (p.cycleExpiry).activeTable = p.activeTable ∧
      (∀ x, (p.cycleExpiry).headCfg x = p.headCfg x) ∧
      (∀ x, (p.cycleExpiry).sectionCfg x = p.sectionCfg x) ∧
      (∀ x, (p.cycleExpiry).threshold x = p.threshold x) := by
  simp [Part.link, Part.head, Part.decoder, Part.sec, Part.activeTable, Part.headCfg, Part.sectionCfg, Part.threshold]

@[simp] theorem Part.readLatch_keeps (p : Part) (i : SectionId) :
    (p.readLatch i).pins = p.pins ∧
      (p.readLatch i).links = p.links ∧
      (p.readLatch i).heads = p.heads ∧
      (p.readLatch i).decoders = p.decoders ∧
      (p.readLatch i).evaluator = p.evaluator ∧
      (p.readLatch i).tables = p.tables ∧
      (p.readLatch i).count = p.count ∧
      (p.readLatch i).report = p.report ∧
      (p.readLatch i).image = p.image := by
  exact ⟨rfl, rfl, rfl, rfl, rfl, rfl, rfl, rfl, rfl⟩

@[simp] theorem Part.readLatch_reads (p : Part) (i : SectionId) :
    (∀ x, (p.readLatch i).link x = p.link x) ∧
      (∀ x, (p.readLatch i).head x = p.head x) ∧
      (∀ x, (p.readLatch i).decoder x = p.decoder x) ∧
      (p.readLatch i).activeTable = p.activeTable ∧
      (∀ x, (p.readLatch i).headCfg x = p.headCfg x) ∧
      (∀ x, (p.readLatch i).sectionCfg x = p.sectionCfg x) ∧
      (∀ x, (p.readLatch i).threshold x = p.threshold x) := by
  simp [Part.link, Part.head, Part.decoder, Part.activeTable, Part.headCfg, Part.sectionCfg, Part.threshold]

@[simp] theorem Part.transmit_keeps (p : Part) (k : UpKind) (o : Octet) (b : List Octet) :
    (p.transmit k o b).pins = p.pins ∧
      (p.transmit k o b).links = p.links ∧
      (p.transmit k o b).heads = p.heads ∧
      (p.transmit k o b).decoders = p.decoders ∧
      (p.transmit k o b).evaluator = p.evaluator ∧
      (p.transmit k o b).sections = p.sections ∧
      (p.transmit k o b).tables = p.tables ∧
      (p.transmit k o b).count = p.count ∧
      (p.transmit k o b).image = p.image := by
  exact ⟨rfl, rfl, rfl, rfl, rfl, rfl, rfl, rfl, rfl⟩

@[simp] theorem Part.transmit_reads (p : Part) (k : UpKind) (o : Octet) (b : List Octet) :
    (∀ x, (p.transmit k o b).link x = p.link x) ∧
      (∀ x, (p.transmit k o b).head x = p.head x) ∧
      (∀ x, (p.transmit k o b).decoder x = p.decoder x) ∧
      (∀ x, (p.transmit k o b).sec x = p.sec x) ∧
      (p.transmit k o b).activeTable = p.activeTable ∧
      (∀ x, (p.transmit k o b).headCfg x = p.headCfg x) ∧
      (∀ x, (p.transmit k o b).sectionCfg x = p.sectionCfg x) ∧
      (∀ x, (p.transmit k o b).threshold x = p.threshold x) := by
  simp [Part.link, Part.head, Part.decoder, Part.sec, Part.activeTable, Part.headCfg, Part.sectionCfg, Part.threshold]

@[simp] theorem Part.sendReply_keeps (p : Part) (r : Reply) :
    (p.sendReply r).pins = p.pins ∧
      (p.sendReply r).links = p.links ∧
      (p.sendReply r).heads = p.heads ∧
      (p.sendReply r).decoders = p.decoders ∧
      (p.sendReply r).evaluator = p.evaluator ∧
      (p.sendReply r).sections = p.sections ∧
      (p.sendReply r).tables = p.tables ∧
      (p.sendReply r).count = p.count ∧
      (p.sendReply r).image = p.image := by
  exact ⟨rfl, rfl, rfl, rfl, rfl, rfl, rfl, rfl, rfl⟩

@[simp] theorem Part.sendReply_reads (p : Part) (r : Reply) :
    (∀ x, (p.sendReply r).link x = p.link x) ∧
      (∀ x, (p.sendReply r).head x = p.head x) ∧
      (∀ x, (p.sendReply r).decoder x = p.decoder x) ∧
      (∀ x, (p.sendReply r).sec x = p.sec x) ∧
      (p.sendReply r).activeTable = p.activeTable ∧
      (∀ x, (p.sendReply r).headCfg x = p.headCfg x) ∧
      (∀ x, (p.sendReply r).sectionCfg x = p.sectionCfg x) ∧
      (∀ x, (p.sendReply r).threshold x = p.threshold x) := by
  simp [Part.link, Part.head, Part.decoder, Part.sec, Part.activeTable, Part.headCfg, Part.sectionCfg, Part.threshold]

@[simp] theorem Part.sendReport_keeps (p : Part) :
    (p.sendReport).pins = p.pins ∧
      (p.sendReport).links = p.links ∧
      (p.sendReport).heads = p.heads ∧
      (p.sendReport).decoders = p.decoders ∧
      (p.sendReport).evaluator = p.evaluator ∧
      (p.sendReport).tables = p.tables ∧
      (p.sendReport).count = p.count ∧
      (p.sendReport).image = p.image := by
  have k : ((p.sendReport).pins, (p.sendReport).links, (p.sendReport).heads, (p.sendReport).decoders, (p.sendReport).evaluator, (p.sendReport).tables, (p.sendReport).count, (p.sendReport).image) = (p.pins, p.links, p.heads, p.decoders, p.evaluator, p.tables, p.count, p.image) := by
    exact foldl_keeps (fun q : Part => (q.pins, q.links, q.heads, q.decoders, q.evaluator, q.tables, q.count, q.image)) _ (fun q x => by simp) _ _
  simpa using k

@[simp] theorem Part.sendReport_reads (p : Part) :
    (∀ x, (p.sendReport).link x = p.link x) ∧
      (∀ x, (p.sendReport).head x = p.head x) ∧
      (∀ x, (p.sendReport).decoder x = p.decoder x) ∧
      (p.sendReport).activeTable = p.activeTable ∧
      (∀ x, (p.sendReport).headCfg x = p.headCfg x) ∧
      (∀ x, (p.sendReport).sectionCfg x = p.sectionCfg x) ∧
      (∀ x, (p.sendReport).threshold x = p.threshold x) := by
  simp [Part.link, Part.head, Part.decoder, Part.activeTable, Part.headCfg, Part.sectionCfg, Part.threshold]

@[simp] theorem Part.sendNotices_keeps (p : Part) :
    (p.sendNotices).pins = p.pins ∧
      (p.sendNotices).links = p.links ∧
      (p.sendNotices).heads = p.heads ∧
      (p.sendNotices).decoders = p.decoders ∧
      (p.sendNotices).evaluator = p.evaluator ∧
      (p.sendNotices).sections = p.sections ∧
      (p.sendNotices).tables = p.tables ∧
      (p.sendNotices).count = p.count ∧
      (p.sendNotices).image = p.image := by
  exact ⟨rfl, rfl, rfl, rfl, rfl, rfl, rfl, rfl, rfl⟩

@[simp] theorem Part.sendNotices_reads (p : Part) :
    (∀ x, (p.sendNotices).link x = p.link x) ∧
      (∀ x, (p.sendNotices).head x = p.head x) ∧
      (∀ x, (p.sendNotices).decoder x = p.decoder x) ∧
      (∀ x, (p.sendNotices).sec x = p.sec x) ∧
      (p.sendNotices).activeTable = p.activeTable ∧
      (∀ x, (p.sendNotices).headCfg x = p.headCfg x) ∧
      (∀ x, (p.sendNotices).sectionCfg x = p.sectionCfg x) ∧
      (∀ x, (p.sendNotices).threshold x = p.threshold x) := by
  simp [Part.link, Part.head, Part.decoder, Part.sec, Part.activeTable, Part.headCfg, Part.sectionCfg, Part.threshold]

@[simp] theorem Part.sendMirror_keeps (p : Part) (m : Mirror) (ms : List Mirror) :
    (p.sendMirror m ms).pins = p.pins ∧
      (p.sendMirror m ms).links = p.links ∧
      (p.sendMirror m ms).heads = p.heads ∧
      (p.sendMirror m ms).decoders = p.decoders ∧
      (p.sendMirror m ms).evaluator = p.evaluator ∧
      (p.sendMirror m ms).sections = p.sections ∧
      (p.sendMirror m ms).tables = p.tables ∧
      (p.sendMirror m ms).count = p.count ∧
      (p.sendMirror m ms).image = p.image := by
  exact ⟨rfl, rfl, rfl, rfl, rfl, rfl, rfl, rfl, rfl⟩

@[simp] theorem Part.sendMirror_reads (p : Part) (m : Mirror) (ms : List Mirror) :
    (∀ x, (p.sendMirror m ms).link x = p.link x) ∧
      (∀ x, (p.sendMirror m ms).head x = p.head x) ∧
      (∀ x, (p.sendMirror m ms).decoder x = p.decoder x) ∧
      (∀ x, (p.sendMirror m ms).sec x = p.sec x) ∧
      (p.sendMirror m ms).activeTable = p.activeTable ∧
      (∀ x, (p.sendMirror m ms).headCfg x = p.headCfg x) ∧
      (∀ x, (p.sendMirror m ms).sectionCfg x = p.sectionCfg x) ∧
      (∀ x, (p.sendMirror m ms).threshold x = p.threshold x) := by
  simp [Part.link, Part.head, Part.decoder, Part.sec, Part.activeTable, Part.headCfg, Part.sectionCfg, Part.threshold]

@[simp] theorem Part.chooseUnheld_keeps (p : Part) :
    (p.chooseUnheld).pins = p.pins ∧
      (p.chooseUnheld).links = p.links ∧
      (p.chooseUnheld).heads = p.heads ∧
      (p.chooseUnheld).decoders = p.decoders ∧
      (p.chooseUnheld).evaluator = p.evaluator ∧
      (p.chooseUnheld).tables = p.tables ∧
      (p.chooseUnheld).count = p.count ∧
      (p.chooseUnheld).image = p.image := by
  unfold Part.chooseUnheld
  (repeat' split) <;> simp

@[simp] theorem Part.chooseUnheld_reads (p : Part) :
    (∀ x, (p.chooseUnheld).link x = p.link x) ∧
      (∀ x, (p.chooseUnheld).head x = p.head x) ∧
      (∀ x, (p.chooseUnheld).decoder x = p.decoder x) ∧
      (p.chooseUnheld).activeTable = p.activeTable ∧
      (∀ x, (p.chooseUnheld).headCfg x = p.headCfg x) ∧
      (∀ x, (p.chooseUnheld).sectionCfg x = p.sectionCfg x) ∧
      (∀ x, (p.chooseUnheld).threshold x = p.threshold x) := by
  simp [Part.link, Part.head, Part.decoder, Part.activeTable, Part.headCfg, Part.sectionCfg, Part.threshold]

@[simp] theorem Part.choose_keeps (p : Part) :
    (p.choose).pins = p.pins ∧
      (p.choose).links = p.links ∧
      (p.choose).heads = p.heads ∧
      (p.choose).decoders = p.decoders ∧
      (p.choose).evaluator = p.evaluator ∧
      (p.choose).tables = p.tables ∧
      (p.choose).count = p.count ∧
      (p.choose).image = p.image := by
  unfold Part.choose
  (repeat' split) <;> simp

@[simp] theorem Part.choose_reads (p : Part) :
    (∀ x, (p.choose).link x = p.link x) ∧
      (∀ x, (p.choose).head x = p.head x) ∧
      (∀ x, (p.choose).decoder x = p.decoder x) ∧
      (p.choose).activeTable = p.activeTable ∧
      (∀ x, (p.choose).headCfg x = p.headCfg x) ∧
      (∀ x, (p.choose).sectionCfg x = p.sectionCfg x) ∧
      (∀ x, (p.choose).threshold x = p.threshold x) := by
  simp [Part.link, Part.head, Part.decoder, Part.activeTable, Part.headCfg, Part.sectionCfg, Part.threshold]

@[simp] theorem Part.startTransmission_keeps (p : Part) :
    (p.startTransmission).pins = p.pins ∧
      (p.startTransmission).links = p.links ∧
      (p.startTransmission).heads = p.heads ∧
      (p.startTransmission).decoders = p.decoders ∧
      (p.startTransmission).evaluator = p.evaluator ∧
      (p.startTransmission).tables = p.tables ∧
      (p.startTransmission).count = p.count ∧
      (p.startTransmission).image = p.image := by
  unfold Part.startTransmission
  (repeat' split) <;> simp

@[simp] theorem Part.startTransmission_reads (p : Part) :
    (∀ x, (p.startTransmission).link x = p.link x) ∧
      (∀ x, (p.startTransmission).head x = p.head x) ∧
      (∀ x, (p.startTransmission).decoder x = p.decoder x) ∧
      (p.startTransmission).activeTable = p.activeTable ∧
      (∀ x, (p.startTransmission).headCfg x = p.headCfg x) ∧
      (∀ x, (p.startTransmission).sectionCfg x = p.sectionCfg x) ∧
      (∀ x, (p.startTransmission).threshold x = p.threshold x) := by
  simp [Part.link, Part.head, Part.decoder, Part.activeTable, Part.headCfg, Part.sectionCfg, Part.threshold]

@[simp] theorem Part.afterEvent_keeps (p : Part) :
    (p.afterEvent).pins = p.pins ∧
      (p.afterEvent).links = p.links ∧
      (p.afterEvent).heads = p.heads ∧
      (p.afterEvent).decoders = p.decoders ∧
      (p.afterEvent).evaluator = p.evaluator ∧
      (p.afterEvent).tables = p.tables ∧
      (p.afterEvent).count = p.count ∧
      (p.afterEvent).image = p.image := by
  simp only [Part.afterEvent, Part.unlessReset]
  split <;> simp

@[simp] theorem Part.afterEvent_reads (p : Part) :
    (∀ x, (p.afterEvent).link x = p.link x) ∧
      (∀ x, (p.afterEvent).head x = p.head x) ∧
      (∀ x, (p.afterEvent).decoder x = p.decoder x) ∧
      (p.afterEvent).activeTable = p.activeTable ∧
      (∀ x, (p.afterEvent).headCfg x = p.headCfg x) ∧
      (∀ x, (p.afterEvent).sectionCfg x = p.sectionCfg x) ∧
      (∀ x, (p.afterEvent).threshold x = p.threshold x) := by
  simp [Part.link, Part.head, Part.decoder, Part.activeTable, Part.headCfg, Part.sectionCfg, Part.threshold]

@[simp] theorem Part.dropReply_keeps (p : Part) :
    (p.dropReply).pins = p.pins ∧
      (p.dropReply).links = p.links ∧
      (p.dropReply).heads = p.heads ∧
      (p.dropReply).decoders = p.decoders ∧
      (p.dropReply).evaluator = p.evaluator ∧
      (p.dropReply).sections = p.sections ∧
      (p.dropReply).tables = p.tables ∧
      (p.dropReply).report = p.report ∧
      (p.dropReply).image = p.image := by
  exact ⟨rfl, rfl, rfl, rfl, rfl, rfl, rfl, rfl, rfl⟩

@[simp] theorem Part.dropReply_reads (p : Part) :
    (∀ x, (p.dropReply).link x = p.link x) ∧
      (∀ x, (p.dropReply).head x = p.head x) ∧
      (∀ x, (p.dropReply).decoder x = p.decoder x) ∧
      (∀ x, (p.dropReply).sec x = p.sec x) ∧
      (p.dropReply).activeTable = p.activeTable ∧
      (∀ x, (p.dropReply).headCfg x = p.headCfg x) ∧
      (∀ x, (p.dropReply).sectionCfg x = p.sectionCfg x) ∧
      (∀ x, (p.dropReply).threshold x = p.threshold x) := by
  simp [Part.link, Part.head, Part.decoder, Part.sec, Part.activeTable, Part.headCfg, Part.sectionCfg, Part.threshold]

@[simp] theorem Part.endTransmission_keeps (p : Part) :
    (p.endTransmission).pins = p.pins ∧
      (p.endTransmission).links = p.links ∧
      (p.endTransmission).heads = p.heads ∧
      (p.endTransmission).decoders = p.decoders ∧
      (p.endTransmission).evaluator = p.evaluator ∧
      (p.endTransmission).sections = p.sections ∧
      (p.endTransmission).tables = p.tables ∧
      (p.endTransmission).image = p.image := by
  simp only [Part.endTransmission]
  (repeat' split) <;> simp

@[simp] theorem Part.endTransmission_reads (p : Part) :
    (∀ x, (p.endTransmission).link x = p.link x) ∧
      (∀ x, (p.endTransmission).head x = p.head x) ∧
      (∀ x, (p.endTransmission).decoder x = p.decoder x) ∧
      (∀ x, (p.endTransmission).sec x = p.sec x) ∧
      (p.endTransmission).activeTable = p.activeTable ∧
      (∀ x, (p.endTransmission).headCfg x = p.headCfg x) ∧
      (∀ x, (p.endTransmission).sectionCfg x = p.sectionCfg x) ∧
      (∀ x, (p.endTransmission).threshold x = p.threshold x) := by
  simp [Part.link, Part.head, Part.decoder, Part.sec, Part.activeTable, Part.headCfg, Part.sectionCfg, Part.threshold]

@[simp] theorem Part.holdExpiry_keeps (p : Part) :
    (p.holdExpiry).pins = p.pins ∧
      (p.holdExpiry).links = p.links ∧
      (p.holdExpiry).heads = p.heads ∧
      (p.holdExpiry).decoders = p.decoders ∧
      (p.holdExpiry).evaluator = p.evaluator ∧
      (p.holdExpiry).sections = p.sections ∧
      (p.holdExpiry).tables = p.tables ∧
      (p.holdExpiry).count = p.count ∧
      (p.holdExpiry).image = p.image := by
  unfold Part.holdExpiry
  (repeat' split) <;> simp

@[simp] theorem Part.holdExpiry_reads (p : Part) :
    (∀ x, (p.holdExpiry).link x = p.link x) ∧
      (∀ x, (p.holdExpiry).head x = p.head x) ∧
      (∀ x, (p.holdExpiry).decoder x = p.decoder x) ∧
      (∀ x, (p.holdExpiry).sec x = p.sec x) ∧
      (p.holdExpiry).activeTable = p.activeTable ∧
      (∀ x, (p.holdExpiry).headCfg x = p.headCfg x) ∧
      (∀ x, (p.holdExpiry).sectionCfg x = p.sectionCfg x) ∧
      (∀ x, (p.holdExpiry).threshold x = p.threshold x) := by
  simp [Part.link, Part.head, Part.decoder, Part.sec, Part.activeTable, Part.headCfg, Part.sectionCfg, Part.threshold]

@[simp] theorem Part.dueSilence_keeps (p : Part) :
    (p.dueSilence).pins = p.pins ∧
      (p.dueSilence).links = p.links ∧
      (p.dueSilence).evaluator = p.evaluator ∧
      (p.dueSilence).tables = p.tables ∧
      (p.dueSilence).count = p.count ∧
      (p.dueSilence).image = p.image := by
  have k : ((p.dueSilence).pins, (p.dueSilence).links, (p.dueSilence).evaluator, (p.dueSilence).tables, (p.dueSilence).count, (p.dueSilence).image) = (p.pins, p.links, p.evaluator, p.tables, p.count, p.image) := by
    simp only [Part.dueSilence]
    exact foldl_keeps (fun q : Part => (q.pins, q.links, q.evaluator, q.tables, q.count, q.image)) _
      (fun q x => by unfold Part.takeDue; split <;> simp) _ _
  simpa using k

@[simp] theorem Part.dueSilence_reads (p : Part) :
    (∀ x, (p.dueSilence).link x = p.link x) ∧
      (p.dueSilence).activeTable = p.activeTable ∧
      (∀ x, (p.dueSilence).headCfg x = p.headCfg x) ∧
      (∀ x, (p.dueSilence).sectionCfg x = p.sectionCfg x) ∧
      (∀ x, (p.dueSilence).threshold x = p.threshold x) := by
  simp [Part.link, Part.activeTable, Part.headCfg, Part.sectionCfg, Part.threshold]

@[simp] theorem Part.dueConfirm_keeps (p : Part) :
    (p.dueConfirm).pins = p.pins ∧
      (p.dueConfirm).links = p.links ∧
      (p.dueConfirm).heads = p.heads ∧
      (p.dueConfirm).decoders = p.decoders ∧
      (p.dueConfirm).evaluator = p.evaluator ∧
      (p.dueConfirm).tables = p.tables ∧
      (p.dueConfirm).count = p.count ∧
      (p.dueConfirm).image = p.image := by
  have k : ((p.dueConfirm).pins, (p.dueConfirm).links, (p.dueConfirm).heads, (p.dueConfirm).decoders, (p.dueConfirm).evaluator, (p.dueConfirm).tables, (p.dueConfirm).count, (p.dueConfirm).image) = (p.pins, p.links, p.heads, p.decoders, p.evaluator, p.tables, p.count, p.image) := by
    simp only [Part.dueConfirm]
    exact foldl_keeps (fun q : Part => (q.pins, q.links, q.heads, q.decoders, q.evaluator, q.tables, q.count, q.image)) _
      (fun q x => by unfold Part.takeDue; split <;> simp) _ _
  simpa using k

@[simp] theorem Part.dueConfirm_reads (p : Part) :
    (∀ x, (p.dueConfirm).link x = p.link x) ∧
      (∀ x, (p.dueConfirm).head x = p.head x) ∧
      (∀ x, (p.dueConfirm).decoder x = p.decoder x) ∧
      (p.dueConfirm).activeTable = p.activeTable ∧
      (∀ x, (p.dueConfirm).headCfg x = p.headCfg x) ∧
      (∀ x, (p.dueConfirm).sectionCfg x = p.sectionCfg x) ∧
      (∀ x, (p.dueConfirm).threshold x = p.threshold x) := by
  simp [Part.link, Part.head, Part.decoder, Part.activeTable, Part.headCfg, Part.sectionCfg, Part.threshold]

@[simp] theorem Part.dueRelay_keeps (p : Part) :
    (p.dueRelay).pins = p.pins ∧
      (p.dueRelay).heads = p.heads ∧
      (p.dueRelay).decoders = p.decoders ∧
      (p.dueRelay).evaluator = p.evaluator ∧
      (p.dueRelay).tables = p.tables ∧
      (p.dueRelay).count = p.count ∧
      (p.dueRelay).image = p.image := by
  have k : ((p.dueRelay).pins, (p.dueRelay).heads, (p.dueRelay).decoders, (p.dueRelay).evaluator, (p.dueRelay).tables, (p.dueRelay).count, (p.dueRelay).image) = (p.pins, p.heads, p.decoders, p.evaluator, p.tables, p.count, p.image) := by
    simp only [Part.dueRelay]
    exact foldl_keeps (fun q : Part => (q.pins, q.heads, q.decoders, q.evaluator, q.tables, q.count, q.image)) _
      (fun q x => by unfold Part.takeDue; split <;> simp) _ _
  simpa using k

@[simp] theorem Part.dueRelay_reads (p : Part) :
    (∀ x, (p.dueRelay).head x = p.head x) ∧
      (∀ x, (p.dueRelay).decoder x = p.decoder x) ∧
      (p.dueRelay).activeTable = p.activeTable ∧
      (∀ x, (p.dueRelay).headCfg x = p.headCfg x) ∧
      (∀ x, (p.dueRelay).sectionCfg x = p.sectionCfg x) ∧
      (∀ x, (p.dueRelay).threshold x = p.threshold x) := by
  simp [Part.head, Part.decoder, Part.activeTable, Part.headCfg, Part.sectionCfg, Part.threshold]

@[simp] theorem Part.dueSingle_keeps (p : Part) :
    (p.dueSingle).pins = p.pins ∧
      (p.dueSingle).links = p.links ∧
      (p.dueSingle).heads = p.heads ∧
      (p.dueSingle).decoders = p.decoders ∧
      (p.dueSingle).evaluator = p.evaluator ∧
      (p.dueSingle).tables = p.tables ∧
      (p.dueSingle).count = p.count := by
  simp only [Part.dueSingle, Part.takeDue]
  (repeat' split) <;> simp

@[simp] theorem Part.dueSingle_reads (p : Part) :
    (∀ x, (p.dueSingle).link x = p.link x) ∧
      (∀ x, (p.dueSingle).head x = p.head x) ∧
      (∀ x, (p.dueSingle).decoder x = p.decoder x) ∧
      (p.dueSingle).activeTable = p.activeTable ∧
      (∀ x, (p.dueSingle).headCfg x = p.headCfg x) ∧
      (∀ x, (p.dueSingle).sectionCfg x = p.sectionCfg x) ∧
      (∀ x, (p.dueSingle).threshold x = p.threshold x) := by
  simp [Part.link, Part.head, Part.decoder, Part.activeTable, Part.headCfg, Part.sectionCfg, Part.threshold]

@[simp] theorem Part.countDown_keeps (p : Part) :
    (p.countDown).pins = p.pins ∧
      (p.countDown).decoders = p.decoders ∧
      (p.countDown).evaluator = p.evaluator ∧
      (p.countDown).tables = p.tables ∧
      (p.countDown).count = p.count := by
  exact ⟨rfl, rfl, rfl, rfl, rfl⟩

@[simp] theorem Part.countDown_reads (p : Part) :
    (∀ x, (p.countDown).decoder x = p.decoder x) ∧
      (p.countDown).activeTable = p.activeTable ∧
      (∀ x, (p.countDown).headCfg x = p.headCfg x) ∧
      (∀ x, (p.countDown).sectionCfg x = p.sectionCfg x) ∧
      (∀ x, (p.countDown).threshold x = p.threshold x) := by
  simp [Part.decoder, Part.activeTable, Part.headCfg, Part.sectionCfg, Part.threshold]

@[simp] theorem Part.tick_keeps (p : Part) :
    (p.tick).pins = p.pins ∧
      (p.tick).evaluator = p.evaluator ∧
      (p.tick).tables = p.tables ∧
      (p.tick).count = p.count := by
  simp [Part.tick]

@[simp] theorem Part.tick_reads (p : Part) :
    (p.tick).activeTable = p.activeTable ∧
      (∀ x, (p.tick).headCfg x = p.headCfg x) ∧
      (∀ x, (p.tick).sectionCfg x = p.sectionCfg x) ∧
      (∀ x, (p.tick).threshold x = p.threshold x) := by
  simp [Part.activeTable, Part.headCfg, Part.sectionCfg, Part.threshold]

@[simp] theorem Part.onItsOwn_keeps (p : Part) :
    (p.onItsOwn).pins = p.pins ∧
      (p.onItsOwn).evaluator = p.evaluator ∧
      (p.onItsOwn).tables = p.tables ∧
      (p.onItsOwn).count = p.count := by
  unfold Part.onItsOwn
  (repeat' split) <;> simp

@[simp] theorem Part.onItsOwn_reads (p : Part) :
    (p.onItsOwn).activeTable = p.activeTable ∧
      (∀ x, (p.onItsOwn).headCfg x = p.headCfg x) ∧
      (∀ x, (p.onItsOwn).sectionCfg x = p.sectionCfg x) ∧
      (∀ x, (p.onItsOwn).threshold x = p.threshold x) := by
  simp [Part.activeTable, Part.headCfg, Part.sectionCfg, Part.threshold]

end Sys2Proof.Machine
end

