-- ==== Sys2Proof/Laws/Effects.lean ====
section
/-! SUPPORT. What each shared operation does to the records it changes, said once: the queues of the
report unit, folds over sections and links, the boundary index, the out-of-service signal, a head's
failure, a wheel event, a relay cancellation. -/

namespace Sys2Proof.Machine

/-! ## Running a command -/

@[simp] theorem Part.unlessReset_awake {p : Part} (h : p.inReset = false) (f : Part → Part) :
    p.unlessReset f = f p := by
  simp [Part.unlessReset, h]

@[simp] theorem Part.unlessReset_inReset {p : Part} (h : p.inReset = true) (f : Part → Part) :
    p.unlessReset f = p := by
  simp [Part.unlessReset, h]

/-! ## Marks and notices -/

/-- A mark, as one update of the queue. -/
theorem ReportUnit.mark_eq (r : ReportUnit) (i : SectionId) :
    r.mark i = { r with queue := if i ∈ r.queue then r.queue else r.queue ++ [i] } := by
  unfold ReportUnit.mark
  split <;> rfl

theorem ReportUnit.offer_of_room {r : ReportUnit} (h : r.notices.length < 16) (n : Notice) :
    r.offer n = { r with notices := r.notices ++ [n] } := by
  simp [ReportUnit.offer, noticeCapacity, h]

theorem ReportUnit.offer_of_full {r : ReportUnit} (h : 16 ≤ r.notices.length) (n : Notice) :
    r.offer n = r.setOverrun := by
  simp [ReportUnit.offer, noticeCapacity, Nat.not_lt.2 h]

/-- A notice offered, as one update of the three fields it may change. -/
theorem ReportUnit.offer_eq (r : ReportUnit) (n : Notice) :
    r.offer n = { r with
      notices := if r.notices.length < 16 then r.notices ++ [n] else r.notices
      overrun := if r.notices.length < 16 ∨ r.overrunNoted then r.overrun else true
      overrunAgain := if ¬ r.notices.length < 16 ∧ r.overrunNoted then true else r.overrunAgain } := by
  unfold ReportUnit.offer ReportUnit.setOverrun noticeCapacity
  by_cases h : r.notices.length < 16 <;> by_cases k : r.overrunNoted = true <;> simp [h, k]

/-- What a notice offered leaves as it is. -/
@[simp] theorem ReportUnit.offer_keeps (r : ReportUnit) (n : Notice) :
    (r.offer n).queue = r.queue ∧ (r.offer n).mirrors = r.mirrors ∧ (r.offer n).held = r.held ∧
      (r.offer n).holdTimer = r.holdTimer ∧ (r.offer n).cycleTimer = r.cycleTimer ∧
      (r.offer n).transmitter = r.transmitter ∧ (r.offer n).holdExpired = r.holdExpired ∧
      (r.offer n).holdExpiredAgain = r.holdExpiredAgain := by
  simp [ReportUnit.offer_eq]

/-- What a mark leaves as it is. -/
@[simp] theorem ReportUnit.mark_keeps (r : ReportUnit) (i : SectionId) :
    (r.mark i).notices = r.notices ∧ (r.mark i).mirrors = r.mirrors ∧ (r.mark i).held = r.held ∧
      (r.mark i).holdTimer = r.holdTimer ∧ (r.mark i).cycleTimer = r.cycleTimer ∧
      (r.mark i).transmitter = r.transmitter ∧ (r.mark i).holdExpired = r.holdExpired ∧
      (r.mark i).holdExpiredAgain = r.holdExpiredAgain ∧ (r.mark i).overrun = r.overrun ∧
      (r.mark i).overrunAgain = r.overrunAgain := by
  simp [ReportUnit.mark_eq]

/-- The queue bounds that a notice keeps (Law 6). -/
theorem ReportUnit.offer_bounded {r : ReportUnit} (h : r.notices.length ≤ 16) (n : Notice) :
    (r.offer n).notices.length ≤ 16 := by
  rw [ReportUnit.offer_eq]
  dsimp only
  split
  · simp; omega
  · exact h

/-- A mark queues no section twice (Law 5). -/
theorem ReportUnit.mark_nodup {r : ReportUnit} (h : r.queue.Nodup) (i : SectionId) :
    (r.mark i).queue.Nodup := by
  rw [ReportUnit.mark_eq]
  dsimp only
  split
  · exact h
  · rename_i k
    exact List.nodup_append.2 ⟨h, by simp, by
      intro a ha b hb e
      simp at hb
      exact k (hb ▸ e ▸ ha)⟩

@[simp] theorem Part.offer_report (p : Part) (n : Notice) : (p.offer n).report = p.report.offer n := rfl

@[simp] theorem Part.mark_report (p : Part) (i : SectionId) : (p.mark i).report = p.report.mark i := rfl

@[simp] theorem Part.disturb_report (p : Part) (i : SectionId) (c : Cause) :
    (p.disturb i c).report = p.report.mark i := rfl

/-! ## Folds over sections and links -/

/-- Sections are marked one after the other: those not yet queued join at the back, in the order given. -/
theorem Part.foldl_marks (g : Part → SectionId → Part) (l : List SectionId) (nd : l.Nodup) (p : Part)
    (marks : ∀ q i, i ∈ l → (g q i).report = q.report.mark i) :
    (l.foldl g p).report = { p.report with
      queue := p.report.queue ++ l.filter fun i => decide (i ∉ p.report.queue) } := by
  induction l generalizing p with
  | nil => simp
  | cons i l ih =>
    have hn := (List.nodup_cons.1 nd).1
    rw [List.foldl_cons, ih (List.nodup_cons.1 nd).2 _ (fun q j hj => marks q j (by simp [hj])),
      marks p i (by simp)]
    unfold ReportUnit.mark
    split
    · rename_i h
      simp [h]
    · rename_i h
      simp only [h, not_false_eq_true, decide_true, List.filter_cons_of_pos, List.append_assoc,
        List.cons_append, List.nil_append]
      congr 3
      apply List.filter_congr
      intro x hx
      have : x ≠ i := fun e => hn (e ▸ hx)
      simp [this]

/-- Each section of a list is changed once, by a function of its own record. -/
theorem Part.foldl_sec (g : Part → SectionId → Part) (f : SectionId → SectionRec → SectionRec)
    (one : ∀ q i j, (g q i).sec j = if j = i then f i (q.sec i) else q.sec j)
    (l : List SectionId) (nd : l.Nodup) (p : Part) (j : SectionId) :
    (l.foldl g p).sec j = if j ∈ l then f j (p.sec j) else p.sec j := by
  induction l generalizing p with
  | nil => simp
  | cons i l ih =>
    have hn := (List.nodup_cons.1 nd).1
    rw [List.foldl_cons, ih (List.nodup_cons.1 nd).2]
    by_cases e : j = i
    · subst e
      simp [hn, one]
    · simp [e, one]

/-- Each link of a list is changed once, by a function of its own record. -/
theorem Part.foldl_link (g : Part → LinkId → Part) (f : LinkId → LinkRec → LinkRec)
    (one : ∀ q l m, (g q l).link m = if m = l then f l (q.link l) else q.link m)
    (ls : List LinkId) (nd : ls.Nodup) (p : Part) (m : LinkId) :
    (ls.foldl g p).link m = if m ∈ ls then f m (p.link m) else p.link m := by
  induction ls generalizing p with
  | nil => simp
  | cons l ls ih =>
    have hn := (List.nodup_cons.1 nd).1
    rw [List.foldl_cons, ih (List.nodup_cons.1 nd).2]
    by_cases e : m = l
    · subst e
      simp [hn, one]
    · simp [e, one]

/-- Each head of a list is changed once, by a function of its own record. -/
theorem Part.foldl_head (g : Part → HeadId → Part) (f : HeadId → HeadRec → HeadRec)
    (one : ∀ q h k, (g q h).head k = if k = h then f h (q.head h) else q.head k)
    (hs : List HeadId) (nd : hs.Nodup) (p : Part) (k : HeadId) :
    (hs.foldl g p).head k = if k ∈ hs then f k (p.head k) else p.head k := by
  induction hs generalizing p with
  | nil => simp
  | cons h hs ih =>
    have hn := (List.nodup_cons.1 nd).1
    rw [List.foldl_cons, ih (List.nodup_cons.1 nd).2]
    by_cases e : k = h
    · subst e
      simp [hn, one]
    · simp [e, one]

/-! ## The table's lists -/

theorem Table.presentSections_nodup (t : Table) : t.presentSections.Nodup :=
  (List.nodup_finRange 24).filter _

@[simp] theorem Table.mem_presentSections (t : Table) (i : SectionId) :
    i ∈ t.presentSections ↔ (t.sectionCfg i).present = true := by
  simp [Table.presentSections]

theorem Table.headsOfLink_nodup (t : Table) (l : LinkId) : (t.headsOfLink l).Nodup :=
  (List.nodup_finRange 32).filter _

@[simp] theorem Table.mem_headsOfLink (t : Table) (l : LinkId) (h : HeadId) :
    h ∈ t.headsOfLink l ↔ (t.headCfg h).present = true ∧ (t.headCfg h).link.toNat = l.val := by
  simp [Table.headsOfLink]

/-- A boundary list names a head exactly when it gives it an inward direction. -/
theorem SectionRecord.names_iff (r : SectionRecord) (h : HeadId) :
    r.names h = true ↔ ∃ d, r.inwardAt h = some d := by
  unfold SectionRecord.names SectionRecord.inwardAt
  rw [← Option.isSome_iff_exists, Option.isSome_map, List.find?_isSome, List.any_eq_true]

theorem SectionRecord.inwardAt_none (r : SectionRecord) (h : HeadId) :
    r.inwardAt h = none ↔ r.names h = false := by
  have := r.names_iff h
  cases hn : r.names h <;> cases hi : r.inwardAt h <;> simp_all

/-- What stands in the boundary index of a head (R84). -/
theorem Table.mem_boundaryIndex (t : Table) (h : HeadId) (i : SectionId) (d : Octet) :
    (i, d) ∈ t.boundaryIndex h ↔
      (t.sectionCfg i).present = true ∧ (t.sectionCfg i).inwardAt h = some d := by
  simp only [Table.boundaryIndex, List.mem_filterMap, List.mem_finRange, true_and]
  constructor
  · rintro ⟨j, hj⟩
    split at hj
    · rename_i hp
      simp only [Option.map_eq_some_iff, Prod.mk.injEq] at hj
      obtain ⟨e, he, rfl, rfl⟩ := hj
      exact ⟨hp, he⟩
    · simp at hj
  · rintro ⟨hp, hd⟩
    exact ⟨i, by simp [hp, hd]⟩

/-- The boundary index of a head lists no section twice (R84). -/
theorem Table.boundaryIndex_nodup (t : Table) (h : HeadId) :
    ((t.boundaryIndex h).map Prod.fst).Nodup := by
  have key : (t.boundaryIndex h).map Prod.fst = (List.finRange 24).filter fun i =>
      (t.sectionCfg i).present && ((t.sectionCfg i).inwardAt h).isSome := by
    unfold Table.boundaryIndex
    induction List.finRange 24 with
    | nil => rfl
    | cons i l ih =>
      rw [List.filterMap_cons, List.filter_cons]
      cases hp : (t.sectionCfg i).present <;> cases hd : (t.sectionCfg i).inwardAt h <;>
        simp [ih]
  rw [key]
  exact (List.nodup_finRange 24).filter _

/-! ## Disturbance and the out-of-service signal -/

theorem Part.disturb_sec (p : Part) (i j : SectionId) (c : Cause) :
    (p.disturb i c).sec j = if j = i then (p.sec i).disturb c else p.sec j := by
  simp [Part.disturb, Part.sec_setSec_eq]

/-- The record of a section after an entry that leaves a DISTURBED section alone (R91, R104). -/
def SectionRec.disturbUnlessDisturbed (r : SectionRec) (c : Cause) : SectionRec :=
  if r.state = .disturbed then r else r.disturb c

theorem Part.disturbUnlessDisturbed_sec (p : Part) (i j : SectionId) (c : Cause) :
    (p.disturbUnlessDisturbed i c).sec j =
      if j = i then (p.sec i).disturbUnlessDisturbed c else p.sec j := by
  unfold Part.disturbUnlessDisturbed SectionRec.disturbUnlessDisturbed
  split
  · split
    · rename_i e
      rw [e]
    · rfl
  · exact p.disturb_sec i j c

/-- A fold over the items of a boundary index, as a fold over its sections. -/
theorem foldl_fst {α : Type} (g : α → SectionId → α) (l : List (SectionId × Octet)) (a : α) :
    l.foldl (fun q item => g q item.1) a = (l.map Prod.fst).foldl g a := by
  rw [List.foldl_map]

/-- The out-of-service signal, section by section (R104). -/
theorem Part.outOfService_sec (p : Part) (h : HeadId) (c : HeadCause) (i : SectionId) :
    (p.outOfService h c).sec i =
      if (p.sectionCfg i).present = true ∧ (p.sectionCfg i).names h = true then
        (p.sec i).disturbUnlessDisturbed (.headFailed h c)
      else p.sec i := by
  unfold Part.outOfService
  have e := foldl_fst (fun (q : Part) i => q.disturbUnlessDisturbed i (.headFailed h c))
    (p.activeTable.boundaryIndex h) p
  beta_reduce at e
  rw [e, Part.foldl_sec _ (fun _ r => r.disturbUnlessDisturbed (.headFailed h c))
      (fun q i j => q.disturbUnlessDisturbed_sec i j _) _ (p.activeTable.boundaryIndex_nodup h)]
  congr 1
  simp only [List.mem_map, Prod.exists, exists_and_right, exists_eq_right, eq_iff_iff]
  simp only [Table.mem_boundaryIndex, SectionRecord.names_iff, exists_and_left]
  rfl

/-! ## A head's failure (R42, R43) -/

theorem Part.failHead_head (p : Part) (h k : HeadId) (c : HeadCause) :
    (p.failHead h c).head k = if k = h then (p.head h).fail c else p.head k := by
  simp only [Part.failHead]
  split <;> simp [Part.head_setHead_eq]

theorem Part.failHead_decoder (p : Part) (h k : HeadId) (c : HeadCause) :
    (p.failHead h c).decoder k =
      if k = h ∧ (p.head h).state = .inService then (p.decoder h).rest else p.decoder k := by
  simp only [Part.failHead]
  split <;> simp [Part.decoder_setDecoder_eq, *]

theorem Part.failHead_sec (p : Part) (h : HeadId) (c : HeadCause) (i : SectionId) :
    (p.failHead h c).sec i =
      if (p.head h).state = .inService ∧ (p.sectionCfg i).present = true ∧
          (p.sectionCfg i).names h = true then
        (p.sec i).disturbUnlessDisturbed (.headFailed h c)
      else p.sec i := by
  simp only [Part.failHead]
  split
  · rename_i hs
    rw [Part.outOfService_sec]
    simp [hs]
  · rename_i hs
    simp [hs]

/-! ## Wheel events (R94) -/

theorem Part.applyWheel_sec (p : Part) (i j : SectionId) (inward : Bool) :
    (p.applyWheel i inward).sec j =
      if j = i then ((p.sec i).wheel (p.sectionCfg i) inward).1 else p.sec j := by
  simp only [Part.applyWheel]
  split <;> simp [Part.sec_setSec_eq]

/-- Each item of a boundary list is applied once, to its own section. -/
theorem Part.foldl_items (g : Part → SectionId × Octet → Part)
    (f : SectionId × Octet → SectionRec → SectionRec) (P : Part → Prop)
    (keepsP : ∀ q x, P q → P (g q x))
    (one : ∀ q x j, P q → (g q x).sec j = if j = x.1 then f x (q.sec x.1) else q.sec j)
    (l : List (SectionId × Octet)) (nd : (l.map Prod.fst).Nodup) (p : Part) (hp : P p)
    (j : SectionId) :
    (∀ x ∈ l, x.1 = j → (l.foldl g p).sec j = f x (p.sec j)) ∧
      ((∀ x ∈ l, x.1 ≠ j) → (l.foldl g p).sec j = p.sec j) := by
  induction l generalizing p with
  | nil => simp
  | cons y l ih =>
    rw [List.map_cons, List.nodup_cons] at nd
    have k := ih nd.2 (g p y) (keepsP p y hp)
    constructor
    · intro x hx e
      rw [List.foldl_cons]
      rcases List.mem_cons.1 hx with rfl | hx
      · rw [k.2, one _ _ _ hp, if_pos e.symm, e]
        intro z hz ez
        exact nd.1 (by rw [e, ← ez]; exact List.mem_map_of_mem hz)
      · rw [k.1 x hx e, one _ _ _ hp, if_neg]
        intro ej
        exact nd.1 (by rw [← ej, ← e]; exact List.mem_map_of_mem hx)
    · intro hx
      rw [List.foldl_cons, k.2 fun x h => hx x (List.mem_cons_of_mem _ h), one _ _ _ hp, if_neg]
      exact fun e => hx y (by simp) e.symm

/-- A wheel event, section by section (R94): inward where the direction is the section's at the head. -/
theorem Part.wheelEvent_sec (p : Part) (h : HeadId) (d : Dir) (i : SectionId) :
    (p.wheelEvent h d).sec i =
      if p.evaluator = .running ∧ (p.sectionCfg i).present = true then
        match (p.sectionCfg i).inwardAt h with
        | some inward => ((p.sec i).wheel (p.sectionCfg i) (codeDir d == inward)).1
        | none => p.sec i
      else p.sec i := by
  unfold Part.wheelEvent
  split
  · rename_i hr
    have k := Part.foldl_items (fun q item => q.applyWheel item.1 (codeDir d == item.2))
      (fun x r => (r.wheel (p.sectionCfg x.1) (codeDir d == x.2)).1)
      (fun q => q.activeTable = p.activeTable) (fun q x hq => by simpa using hq)
      (fun q x j hq => by rw [Part.applyWheel_sec]; simp only [Part.sectionCfg, hq])
      (p.activeTable.boundaryIndex h) (p.activeTable.boundaryIndex_nodup h) p rfl i
    by_cases hp : (p.sectionCfg i).present = true
    · cases hd : (p.sectionCfg i).inwardAt h with
      | none =>
        simp only [hr, hp]
        apply k.2
        rintro ⟨j, d'⟩ hx rfl
        rw [Table.mem_boundaryIndex] at hx
        simp only [Part.sectionCfg] at hd
        rw [hx.2] at hd
        simp at hd
      | some d' =>
        simp only [hr, hp]
        exact k.1 (i, d') ((Table.mem_boundaryIndex _ _ _ _).2 ⟨hp, hd⟩) rfl
    · rw [if_neg fun c => hp c.2]
      apply k.2
      rintro ⟨j, d'⟩ hx rfl
      rw [Table.mem_boundaryIndex] at hx
      exact hp hx.1
  · rename_i hr
    simp [hr]

/-! ## Relay queues -/

theorem Part.offerRelayResults_report (p : Part) (l : LinkId) (r : RelayResult)
    (cs : List RelayCommand) :
    (p.offerRelayResults l r cs).report =
      (cs.map fun c => relayNotice l c r).foldl ReportUnit.offer p.report := by
  induction cs generalizing p with
  | nil => rfl
  | cons c cs ih => rw [Part.offerRelayResults, ih]; rfl

theorem Part.cancelRelays_link (p : Part) (l m : LinkId) (picked : RelayCommand → Bool) :
    (p.cancelRelays l picked).link m =
      if m = l then
        { p.link l with
          queue := (p.link l).queue.filter fun c => !picked c
          timer :=
            match (p.link l).queue with
            | c :: _ => if picked c then .stopped else (p.link l).timer
            | [] => (p.link l).timer }
      else p.link m := by
  simp only [Part.cancelRelays]
  rw [show ∀ (q : Part) r cs, (q.offerRelayResults l r cs).link m = q.link m by simp,
    Part.link_setLink_eq] <;> rfl

theorem Part.cancelRelays_report (p : Part) (l : LinkId) (picked : RelayCommand → Bool) :
    (p.cancelRelays l picked).report =
      (((p.link l).queue.filter picked).map fun c => relayNotice l c .cancelled).foldl
        ReportUnit.offer p.report := by
  simp only [Part.cancelRelays]
  rw [Part.offerRelayResults_report]
  rfl

/-! ## The end of an event (R155) -/

theorem Part.afterEvent_of_inReset {p : Part} (h : p.inReset = true) : p.afterEvent = p := by
  simp [Part.afterEvent, h]

/-- A busy transmitter goes on. -/
theorem Part.afterEvent_of_busy {p : Part} {t : UpTelegram} (h : p.report.transmitter = some t) :
    p.afterEvent = p := by
  simp [Part.afterEvent, Part.unlessReset, Part.startTransmission, h]

/-- With nothing that may start, the end of an event changes nothing. -/
theorem Part.afterEvent_of_notDue {p : Part} (h : p.transmissionDue = false) : p.afterEvent = p := by
  unfold Part.afterEvent Part.unlessReset Part.startTransmission Part.choose Part.chooseUnheld
  unfold Part.transmissionDue at h
  (repeat' split) <;> simp_all

/-- What is put on the line is on the line. -/
@[simp] theorem Part.transmit_transmitter (p : Part) (k : UpKind) (o : Octet) (b : List Octet) :
    (p.transmit k o b).report.transmitter.isSome = true := rfl

/-- The end of an event leaves an awake part nothing that may start. -/
theorem Part.transmissionDue_afterEvent {p : Part} (h : p.inReset = false) :
    p.afterEvent.transmissionDue = false := by
  simp only [Part.afterEvent, Part.unlessReset_awake h]
  unfold Part.startTransmission Part.choose Part.chooseUnheld Part.transmissionDue
  (repeat' split) <;>
    simp_all [Part.sendReply, Part.sendReport, Part.sendNotices, Part.sendMirror, Part.transmit]

/-- Starting a report telegram changes no more of a section's record than its latch. -/
theorem Part.sendReport_latches (p : Part) (i : SectionId) :
    ∃ latch, p.sendReport.sec i = { p.sec i with latch := latch } := by
  show ∃ latch, ((p.report.queue.take reportEntries).foldl (fun q i => q.readLatch i) p).sec i =
    { p.sec i with latch := latch }
  refine foldl_inv (fun q : Part => ∃ latch, q.sec i = { p.sec i with latch := latch }) _ ?_ _ p
    ⟨(p.sec i).latch, rfl⟩
  rintro q j ⟨latch, e⟩
  by_cases c : i = j
  · subst c
    exact ⟨false, by simp [Part.readLatch, e]⟩
  · exact ⟨latch, by simp [Part.readLatch, Part.sec_setSec_eq, c, e]⟩

/-- The end of an event changes no more of a section's record than its latch. -/
theorem Part.afterEvent_sec (p : Part) (i : SectionId) :
    ∃ latch, p.afterEvent.sec i = { p.sec i with latch := latch } := by
  unfold Part.afterEvent Part.unlessReset Part.startTransmission Part.choose Part.chooseUnheld
  (repeat' split) <;> first
    | exact p.sendReport_latches i
    | exact ⟨(p.sec i).latch, rfl⟩

/-- The end of an event, taken twice, starts no more than taken once. -/
@[simp] theorem Part.afterEvent_afterEvent (p : Part) : p.afterEvent.afterEvent = p.afterEvent := by
  by_cases h : p.inReset = true
  · rw [Part.afterEvent_of_inReset h, Part.afterEvent_of_inReset h]
  · exact Part.afterEvent_of_notDue (Part.transmissionDue_afterEvent (by simpa using h))

/-- What the transmitter starts depends on the report unit, the replies and the hold alone. -/
theorem Part.transmissionDue_congr {p q : Part} (r : q.report = p.report)
    (c : q.count.replies = p.count.replies) : q.transmissionDue = p.transmissionDue := by
  simp only [Part.transmissionDue, r, c]

@[simp] theorem Part.transmissionDue_setLink (p : Part) (l : LinkId) (k : LinkRec) :
    (p.setLink l k).transmissionDue = p.transmissionDue := rfl

@[simp] theorem Part.transmissionDue_setCountRx (p : Part) (rx : Rx) :
    (p.setCountRx rx).transmissionDue = p.transmissionDue := rfl

/-- While the line is held, the end of an event starts a reply or nothing (R155, Law 12). -/
theorem Part.afterEvent_held {p : Part} (h : p.report.held = true) :
    p.afterEvent.report.transmitter = p.report.transmitter ∨
      ∃ u, p.afterEvent.report.transmitter = some u ∧ u.kind = .reply := by
  unfold Part.afterEvent Part.unlessReset Part.startTransmission Part.choose
  (repeat' split) <;> first
    | exact .inl rfl
    | exact .inr ⟨_, rfl, rfl⟩
    | simp_all

@[simp] theorem State.afterEvent_afterEvent (s : State) : s.afterEvent.afterEvent = s.afterEvent := by
  simp [State.afterEvent]

@[simp] theorem State.afterEvent_pending (s : State) : s.afterEvent.pending = s.pending := rfl

@[simp] theorem State.afterEvent_toPart (s : State) : s.afterEvent.toPart = s.toPart.afterEvent := rfl

theorem State.next_eq (s : State) (p : Part) :
    s.next p = .next (State.afterEvent { s with toPart := p }) := rfl

end Sys2Proof.Machine
end

