-- ==== Sys2Proof/Laws/Framing.lean ====
section
/-! SUPPORT. What the receivers make of whole runs of octets: how a frame is judged as it grows, and what
a telegram, given octet by octet, comes to on the count line and on a head link. The part is one with
nothing that may start (`Part.transmissionDue`), as every step leaves it: the octets of a telegram before
its last then start nothing. -/

namespace Sys2Proof.Machine

/-! ## Judging a frame -/

theorem judgeFrame_incomplete {octets : List Octet} (h : incomplete octets) :
    judgeFrame octets = .more := by
  match octets, h with
  | [], _ => rfl
  | [_], _ => rfl
  | _ :: length :: rest, h =>
    obtain ⟨h1, h2, h3⟩ := h
    simp only [judgeFrame]
    rw [if_neg (by omega), if_pos h3]

theorem incomplete_of_append {as bs : List Octet} (h : incomplete (as ++ bs)) : incomplete as := by
  match as, h with
  | [], _ => trivial
  | [_], _ => trivial
  | _ :: length :: rest, h =>
    obtain ⟨h1, h2, h3⟩ := h
    have e := List.length_append (as := rest) (bs := bs)
    change (rest ++ bs).length < _ at h3
    exact ⟨h1, h2, by omega⟩

theorem incomplete_of_complete {as : List Octet} {o : Octet} (h : complete (as ++ [o])) :
    incomplete as := by
  match as, h with
  | [], _ => trivial
  | [_], _ => trivial
  | _ :: length :: rest, h =>
    obtain ⟨h1, h2, h3⟩ := h
    have e := List.length_append (as := rest) (bs := [o])
    simp only [List.length_singleton] at e
    change (rest ++ [o]).length = _ at h3
    exact ⟨h1, h2, by omega⟩

theorem judgeFrame_complete {octets : List Octet} (h : complete octets) :
    judgeFrame octets = if passesCrc octets then .good else .badCrc := by
  match octets, h with
  | [], h => exact h.elim
  | [_], h => exact h.elim
  | _ :: length :: rest, h =>
    obtain ⟨h1, h2, h3⟩ := h
    simp only [judgeFrame]
    rw [if_neg (by omega), if_neg (by omega)]

theorem judgeFrame_badLength {address length : Octet} (h : length.toNat < 4 ∨ 37 < length.toNat)
    (rest : List Octet) : judgeFrame (address :: length :: rest) = .badLength := by
  simp only [judgeFrame]
  rw [if_pos h]

/-- A complete frame is all but its last octet, and that octet. -/
theorem complete_split {octets : List Octet} (h : complete octets) :
    ∃ init last, octets = init ++ [last] ∧ incomplete init := by
  rcases List.eq_nil_or_concat octets with rfl | ⟨init, last, rfl⟩
  · exact h.elim
  · rw [List.concat_eq_append] at h ⊢
    exact ⟨init, last, rfl, incomplete_of_complete h⟩

/-! ## Whole telegrams -/

theorem length_crcOctets (crc : Crc) : (octets16 crc).length = 2 := rfl

theorem octetOf_toNat {n : Nat} (h : n < 256) : (octetOf n).toNat = n := by
  simp [octetOf, Nat.mod_eq_of_lt h]

theorem framed_complete (address kind : Octet) {body : List Octet} (h1 : 1 ≤ body.length)
    (h2 : body.length ≤ 34) : complete (framed address kind body) := by
  have e : framed address kind body =
      address :: octetOf (body.length + 3) :: (kind :: body ++
        octets16 (crc16 (address :: octetOf (body.length + 3) :: kind :: body))) := rfl
  rw [e]
  refine ⟨?_, ?_, ?_⟩ <;> rw [octetOf_toNat (by omega)]
  · omega
  · omega
  · simp [length_crcOctets]

theorem framed_length (address kind : Octet) (body : List Octet) :
    (framed address kind body).length = body.length + 5 := by
  simp [framed, length_crcOctets]

theorem framed_passesCrc (address kind : Octet) (body : List Octet) :
    passesCrc (framed address kind body) = true := by
  unfold passesCrc
  rw [framed_length]
  unfold framed
  simp only [Nat.reduceSubDiff]
  rw [List.drop_left' (by simp), List.take_left' (by simp)]
  simp

@[simp] theorem addressOctet_framed (address kind : Octet) (body : List Octet) :
    addressOctet (framed address kind body) = address := rfl

@[simp] theorem kindOctet_framed (address kind : Octet) (body : List Octet) :
    kindOctet (framed address kind body) = kind := rfl

@[simp] theorem bodyOctets_framed (address kind : Octet) (body : List Octet) :
    bodyOctets (framed address kind body) = body := by
  unfold bodyOctets
  rw [framed_length]
  unfold framed
  simp only [Nat.reduceSubDiff]
  rw [List.take_left' (by simp)]
  rfl

theorem judgeFrame_framed (address kind : Octet) {body : List Octet} (h1 : 1 ≤ body.length)
    (h2 : body.length ≤ 34) : judgeFrame (framed address kind body) = .good := by
  rw [judgeFrame_complete (framed_complete address kind h1 h2), framed_passesCrc]
  rfl

@[simp] theorem Polarity.apply_apply (polarity : Polarity) (o : Octet) :
    polarity.apply (polarity.apply o) = o := by
  cases polarity <;> simp [Polarity.apply]

/-! ## Octets one after the other -/

theorem Part.lineOctets_cons (p : Part) (line : Line) (o : Octet) (octets : List Octet) :
    p.lineOctets line (o :: octets) = (p.lineOctet line o).afterEvent.lineOctets line octets := rfl

theorem Part.lineOctets_snoc (p : Part) (line : Line) (octets : List Octet) (o : Octet) :
    p.lineOctets line (octets ++ [o]) = ((p.lineOctets line octets).lineOctet line o).afterEvent := by
  simp [Part.lineOctets]

/-! ## The count line -/

theorem Part.countOctet_sync {p : Part} (h : p.count.rx = .wait ∨ p.count.rx = .hunt) :
    p.countOctet sync = p.setCountRx (.frame []) := by
  rcases h with h | h <;> simp [Part.countOctet, h]

theorem Part.setCountRx_setCountRx (p : Part) (a b : Rx) :
    (p.setCountRx a).setCountRx b = p.setCountRx b := rfl

/-- Octets that do not complete the frame are taken into it. -/
theorem Part.countOctets_incomplete {p : Part} (d : p.transmissionDue = false)
    (taken more : List Octet) (h : incomplete (taken ++ more)) :
    (p.setCountRx (.frame taken)).lineOctets .countLine more =
      p.setCountRx (.frame (taken ++ more)) := by
  induction more generalizing taken with
  | nil => simp [Part.lineOctets]
  | cons o more ih =>
    have h' : incomplete (taken ++ [o] ++ more) := by simpa using h
    have e : (p.setCountRx (.frame taken)).lineOctet .countLine o =
        p.setCountRx (.frame (taken ++ [o])) := by
      simp only [Part.lineOctet, Part.countOctet, Part.setCountRx, Part.setCount]
      rw [judgeFrame_incomplete (incomplete_of_append h')]
    rw [Part.lineOctets_cons, e, Part.afterEvent_of_notDue (by simpa using d), ih _ h']
    simp

/-- SYNC and octets that do not complete the telegram leave the receiver in FRAME. -/
theorem Part.countLine_incomplete {p : Part} (d : p.transmissionDue = false)
    (h : p.count.rx = .wait ∨ p.count.rx = .hunt)
    {octets : List Octet} (k : incomplete octets) :
    p.lineOctets .countLine (sync :: octets) = p.setCountRx (.frame octets) := by
  rw [Part.lineOctets_cons, Part.lineOctet, Part.countOctet_sync h,
    Part.afterEvent_of_notDue (by simpa using d), Part.countOctets_incomplete d [] octets k]
  rfl

/-- SYNC and a complete frame: what the last octet makes of the frame (R52, R141). -/
theorem Part.countLine_complete {p : Part} (d : p.transmissionDue = false)
    (h : p.count.rx = .wait ∨ p.count.rx = .hunt)
    {octets : List Octet} (k : complete octets) :
    p.lineOctets .countLine (sync :: octets) =
      (if passesCrc octets then
        (p.setCountRx .wait).judgeCountTelegram (addressOctet octets) (kindOctet octets)
          (bodyOctets octets)
      else p.countBadFrame CountLineCounts.raiseCrc).afterEvent := by
  obtain ⟨init, last, rfl, hi⟩ := complete_split k
  rw [show sync :: (init ++ [last]) = (sync :: init) ++ [last] from rfl, Part.lineOctets_snoc,
    Part.countLine_incomplete d h hi]
  congr 1
  simp only [Part.lineOctet, Part.countOctet, Part.setCountRx, Part.setCount]
  rw [judgeFrame_complete k]
  cases passesCrc (init ++ [last]) <;> rfl

/-! ## A head link -/

/-- The octets of a line, judged in the link's polarity, on a LOCKED link with its transmitter idle. -/
theorem Part.linkOctet_locked {p : Part} {l : LinkId} {polarity : Polarity} {rx : Rx}
    (m : (p.link l).mode = .locked polarity rx) (t : (p.link l).transmitter = none) (o : Octet) :
    p.linkOctet l (polarity.apply o) = p.lockedOctet l rx o := by
  simp [Part.linkOctet, m, t]

/-- The part with a LOCKED link's receive condition set. -/
def Part.setLinkMode (p : Part) (l : LinkId) (mode : LinkMode) : Part :=
  p.setLink l { p.link l with mode := mode }

theorem Part.setLink_setLink (p : Part) (l : LinkId) (a b : LinkRec) :
    (p.setLink l a).setLink l b = p.setLink l b := by
  simp [Part.setLink]

@[simp] theorem Part.setLinkMode_setLinkMode (p : Part) (l : LinkId) (a b : LinkMode) :
    (p.setLinkMode l a).setLinkMode l b = p.setLinkMode l b := by
  simp [Part.setLinkMode, Part.setLink_setLink]

@[simp] theorem Part.transmissionDue_setLinkMode (p : Part) (l : LinkId) (mode : LinkMode) :
    (p.setLinkMode l mode).transmissionDue = p.transmissionDue := rfl

@[simp] theorem Part.setLinkMode_link (p : Part) (l : LinkId) (mode : LinkMode) :
    (p.setLinkMode l mode).link l = { p.link l with mode := mode } := by
  simp [Part.setLinkMode]

theorem LinkRec.withRx_locked {k : LinkRec} {polarity : Polarity} {rx : Rx}
    (m : k.mode = .locked polarity rx) (new : Rx) :
    k.withRx new = { k with mode := .locked polarity new } := by
  simp [LinkRec.withRx, m]

theorem Part.linkOctet_sync {p : Part} {l : LinkId} {polarity : Polarity} {rx : Rx}
    (m : (p.link l).mode = .locked polarity rx) (r : rx = .wait ∨ rx = .hunt)
    (t : (p.link l).transmitter = none) :
    p.linkOctet l (polarity.apply sync) = p.setLinkMode l (.locked polarity (.frame [])) := by
  rw [Part.linkOctet_locked m t]
  rcases r with rfl | rfl <;> simp [Part.lockedOctet, LinkRec.withRx_locked m, Part.setLinkMode]

theorem Part.linkOctets_incomplete {p : Part} (d : p.transmissionDue = false) (l : LinkId)
    (polarity : Polarity) (t : (p.link l).transmitter = none) (taken more : List Octet)
    (h : incomplete (taken ++ more)) :
    (p.setLinkMode l (.locked polarity (.frame taken))).lineOctets (.headLink l)
        (more.map polarity.apply) =
      p.setLinkMode l (.locked polarity (.frame (taken ++ more))) := by
  induction more generalizing taken with
  | nil => simp [Part.lineOctets]
  | cons o more ih =>
    have h' : incomplete (taken ++ [o] ++ more) := by simpa using h
    have e : (p.setLinkMode l (.locked polarity (.frame taken))).lineOctet (.headLink l)
        (polarity.apply o) = p.setLinkMode l (.locked polarity (.frame (taken ++ [o]))) := by
      rw [Part.lineOctet, Part.linkOctet_locked (rx := .frame taken) (by simp) (by simpa using t)]
      simp only [Part.lockedOctet]
      rw [judgeFrame_incomplete (incomplete_of_append h')]
      simp [LinkRec.withRx, Part.setLinkMode, Part.setLink_setLink]
    rw [List.map_cons, Part.lineOctets_cons, e, Part.afterEvent_of_notDue (by simpa using d), ih _ h']
    simp

/-- SYNC and octets that do not complete the telegram leave a LOCKED link's receiver in FRAME. -/
theorem Part.headLink_incomplete {p : Part} (d : p.transmissionDue = false) {l : LinkId} {polarity : Polarity} {rx : Rx}
    (m : (p.link l).mode = .locked polarity rx) (r : rx = .wait ∨ rx = .hunt)
    (t : (p.link l).transmitter = none) {octets : List Octet} (k : incomplete octets) :
    p.lineOctets (.headLink l) ((sync :: octets).map polarity.apply) =
      p.setLinkMode l (.locked polarity (.frame octets)) := by
  rw [List.map_cons, Part.lineOctets_cons, Part.lineOctet, Part.linkOctet_sync m r t,
    Part.afterEvent_of_notDue (by simpa using d),
    Part.linkOctets_incomplete d l polarity t [] octets k]
  rfl

/-- SYNC and a complete frame on a LOCKED link: what the last octet makes of the frame (R52). -/
theorem Part.headLink_complete {p : Part} (d : p.transmissionDue = false) {l : LinkId} {polarity : Polarity} {rx : Rx}
    (m : (p.link l).mode = .locked polarity rx) (r : rx = .wait ∨ rx = .hunt)
    (t : (p.link l).transmitter = none) {octets : List Octet} (k : complete octets) :
    ∃ frame, p.lineOctets (.headLink l) ((sync :: octets).map polarity.apply) =
      (if passesCrc octets then
        (p.setLinkMode l (.locked polarity .wait)).lockedTelegram l octets
      else (p.setLinkMode l (.locked polarity (.frame frame))).badFrame l .crc .hunt).afterEvent := by
  obtain ⟨init, last, rfl, hi⟩ := complete_split k
  refine ⟨init, ?_⟩
  rw [show (sync :: (init ++ [last])).map polarity.apply =
      (sync :: init).map polarity.apply ++ [polarity.apply last] by simp, Part.lineOctets_snoc,
    Part.headLink_incomplete d m r t hi]
  congr 1
  rw [Part.lineOctet, Part.linkOctet_locked (rx := .frame init) (by simp) (by simpa using t)]
  simp only [Part.lockedOctet]
  rw [judgeFrame_complete k]
  cases passesCrc (init ++ [last]) <;>
    simp [LinkRec.withRx, Part.setLinkMode, Part.setLink_setLink]

/-- A bad frame below the threshold changes the link's record alone (R57). -/
theorem Part.badFrame_below {p : Part} {l : LinkId} (h : (p.link l).run + 1 < p.threshold l)
    (kind : BadFrame) (rx : Rx) :
    p.badFrame l kind rx = p.setLink l { (p.link l).withRx rx with
      run := (p.link l).run + 1, counts := (p.link l).counts.raise kind } := by
  simp only [Part.badFrame]
  rw [if_neg (by omega)]

/-- A bad frame at or above the threshold loses the link (R57). -/
theorem Part.badFrame_above {p : Part} {l : LinkId} (h : p.threshold l ≤ (p.link l).run + 1)
    (kind : BadFrame) (rx : Rx) :
    p.badFrame l kind rx = (p.setLink l { (p.link l).withRx rx with
      run := (p.link l).run + 1, counts := (p.link l).counts.raise kind }).linkLoss l := by
  simp only [Part.badFrame]
  rw [if_pos h]

/-- A whole telegram on a LOCKED link in WAIT or HUNT goes to the judgement of form and station. -/
theorem Part.headLink_telegram {p : Part} (d : p.transmissionDue = false) {l : LinkId} {polarity : Polarity} {rx : Rx}
    (m : (p.link l).mode = .locked polarity rx) (r : rx = .wait ∨ rx = .hunt)
    (t : (p.link l).transmitter = none) (address kind : Octet) {body : List Octet}
    (h1 : 1 ≤ body.length) (h2 : body.length ≤ 34) :
    p.lineOctets (.headLink l) ((telegram address kind body).map polarity.apply) =
      ((p.setLinkMode l (.locked polarity .wait)).lockedTelegram l
        (framed address kind body)).afterEvent := by
  obtain ⟨frame, e⟩ := Part.headLink_complete d m r t (framed_complete address kind h1 h2)
  rw [telegram, e, framed_passesCrc]
  rfl

/-- A telegram that is well formed carries its address octet as its station (R53). -/
theorem parseHeadStatus_station {a k : Octet} {b : List Octet} {t : HeadTelegram}
    (h : parseHeadStatus a k b = some t) : t.station = a := by
  unfold parseHeadStatus at h
  split at h
  · dsimp only at h
    generalize (if BitVec.getLsbD _ 2 = true then 5 else 0) = x at h
    generalize (if BitVec.getLsbD _ 1 = true then 1 else 0) = y at h
    split at h
    · cases h
    · split at h
      · cases h
      · split at h
        · cases h
        · split at h
          · cases h
          · cases h; rfl
  · cases h

/-- The last change entry of a well-formed telegram is its present phase (R53). -/
theorem parseHeadStatus_lastChange {a k : Octet} {b : List Octet} {t : HeadTelegram}
    (h : parseHeadStatus a k b = some t) : t.changes = [] ∨ t.changes.getLast? = some t.phase := by
  unfold parseHeadStatus at h
  split at h
  · dsimp only at h
    generalize (if BitVec.getLsbD _ 2 = true then 5 else 0) = x at h
    generalize (if BitVec.getLsbD _ 1 = true then 1 else 0) = y at h
    split at h
    · cases h
    · split at h
      · cases h
      · split at h
        · cases h
        · rename_i e
          split at h
          · cases h
          · cases h
            exact Classical.or_iff_not_imp_left.mpr (by simpa using e)
  · cases h

/-! ## A link in SEARCH -/

/-- Octets that do not complete a candidate are taken into it (R55). -/
theorem Part.candidate_incomplete {p : Part} (d : p.transmissionDue = false) (l : LinkId)
    (polarity : Polarity) (t : (p.link l).transmitter = none) (taken more : List Octet)
    (h : incomplete (taken ++ more)) :
    (p.setLinkMode l (.search (some (polarity, taken)))).lineOctets (.headLink l)
        (more.map polarity.apply) =
      p.setLinkMode l (.search (some (polarity, taken ++ more))) := by
  induction more generalizing taken with
  | nil => simp [Part.lineOctets]
  | cons o more ih =>
    have h' : incomplete (taken ++ [o] ++ more) := by simpa using h
    have e : (p.setLinkMode l (.search (some (polarity, taken)))).lineOctet (.headLink l)
        (polarity.apply o) = p.setLinkMode l (.search (some (polarity, taken ++ [o]))) := by
      simp only [Part.lineOctet, Part.linkOctet, Part.setLinkMode_link, t]
      simp only [Option.isSome_none, Bool.false_eq_true, if_false, Part.searchOctet,
        Polarity.apply_apply]
      rw [judgeFrame_incomplete (incomplete_of_append h')]
      simp [Part.setLinkMode, Part.setLink_setLink]
    rw [List.map_cons, Part.lineOctets_cons, e, Part.afterEvent_of_notDue (by simpa using d), ih _ h']
    simp

/-- SYNC in either polarity begins a candidate, and octets that do not complete it are taken (R55). -/
theorem Part.search_incomplete {p : Part} (d : p.transmissionDue = false) {l : LinkId} (m : (p.link l).mode = .search none)
    (t : (p.link l).transmitter = none) (polarity : Polarity) {octets : List Octet}
    (k : incomplete octets) :
    p.lineOctets (.headLink l) ((sync :: octets).map polarity.apply) =
      p.setLinkMode l (.search (some (polarity, octets))) := by
  have e : p.linkOctet l (polarity.apply sync) =
      p.setLinkMode l (.search (some (polarity, []))) := by
    cases polarity <;> simp [Part.linkOctet, t, m, Part.searchOctet, Part.setLinkMode,
      Polarity.apply, sync, syncInverted]
  rw [List.map_cons, Part.lineOctets_cons, Part.lineOctet, e,
    Part.afterEvent_of_notDue (by simpa using d),
    Part.candidate_incomplete d l polarity t [] octets k]
  rfl

/-- SYNC and a complete frame on a link in SEARCH: it locks, or the candidate is dropped (R55). -/
theorem Part.search_complete {p : Part} (d : p.transmissionDue = false) {l : LinkId} (m : (p.link l).mode = .search none)
    (t : (p.link l).transmitter = none) (polarity : Polarity) {octets : List Octet}
    (k : complete octets) :
    ∃ candidate, p.lineOctets (.headLink l) ((sync :: octets).map polarity.apply) =
      (if passesCrc octets then
        (p.setLinkMode l (.search (some candidate))).lock l polarity octets
      else p.setLinkMode l (.search none)).afterEvent := by
  obtain ⟨init, last, rfl, hi⟩ := complete_split k
  refine ⟨(polarity, init), ?_⟩
  rw [show (sync :: (init ++ [last])).map polarity.apply =
      (sync :: init).map polarity.apply ++ [polarity.apply last] by simp, Part.lineOctets_snoc,
    Part.search_incomplete d m t polarity hi]
  congr 1
  simp only [Part.lineOctet, Part.linkOctet, Part.setLinkMode_link, t]
  simp only [Option.isSome_none, Bool.false_eq_true, if_false, Part.searchOctet,
    Polarity.apply_apply]
  rw [judgeFrame_complete k]
  cases passesCrc (init ++ [last]) <;> simp [Part.setLinkMode, Part.setLink_setLink]

/-! ## A receiver that takes nothing -/

/-- A link that is OFF, and one on which the part transmits, takes no octet (R54, R61). -/
theorem Part.linkOctet_ignored {p : Part} {l : LinkId}
    (h : (p.link l).mode = .off ∨ (p.link l).transmitter ≠ none) (o : Octet) : p.linkOctet l o = p := by
  simp only [Part.linkOctet]
  split
  · rfl
  · rename_i t
    rcases h with h | h
    · rw [h]
    · exact absurd (by simpa using t) h

theorem Part.lineOctets_ignored {p : Part} (d : p.transmissionDue = false) {l : LinkId}
    (h : (p.link l).mode = .off ∨ (p.link l).transmitter ≠ none) (octets : List Octet) :
    p.lineOctets (.headLink l) octets = p := by
  induction octets with
  | nil => rfl
  | cons o octets ih =>
    rw [Part.lineOctets_cons, Part.lineOctet, Part.linkOctet_ignored h, Part.afterEvent_of_notDue d, ih]

/-- What every octet and every start keeps, octets one after the other keep. -/
theorem Part.lineOctets_inv (P : Part → Prop) (line : Line)
    (octet : ∀ q o, P q → P (q.lineOctet line o)) (event : ∀ q, P q → P q.afterEvent)
    (octets : List Octet) {p : Part} (h : P p) : P (p.lineOctets line octets) :=
  foldl_inv P _ (fun q o k => event _ (octet q o k)) octets p h

end Sys2Proof.Machine
end

