-- ==== Sys2Proof/Laws/Timers.lean ====
section
/-! SUPPORT. The expiries of a millisecond (R1; log 4), each against the timers it does not own: an expiry
leaves every other timer as it is, or stops it. So the timers that have ended when the millisecond has been
counted are those whose expiries the part then takes. -/

namespace Sys2Proof.Machine

/-- An expiry that is due is an event taken whole; one that is not changes nothing. -/
theorem Part.takeDue_eq (p : Part) (due : Bool) (expiry : Part → Part) :
    p.takeDue due expiry = if due then (expiry p).afterEvent else p := rfl

theorem Timer.isDue_iff (t : Timer) : t.isDue = true ↔ t = .running 0 := by
  cases t <;> simp [Timer.isDue]

/-! ## The two timers of the report unit that run by themselves -/

/-- The hold-limit and report-cycle timers of two parts agree. -/
def Part.SameReportTimers (p q : Part) : Prop :=
  q.report.holdTimer = p.report.holdTimer ∧ q.report.cycleTimer = p.report.cycleTimer

theorem Part.disturbUnlessDisturbed_reportTimers (p : Part) (i : SectionId) (c : Cause) :
    p.SameReportTimers (p.disturbUnlessDisturbed i c) := by
  unfold Part.SameReportTimers Part.disturbUnlessDisturbed
  split <;> simp

theorem Part.outOfService_reportTimers (p : Part) (h : HeadId) (c : HeadCause) :
    p.SameReportTimers (p.outOfService h c) := by
  unfold Part.outOfService
  refine foldl_inv (fun q : Part => p.SameReportTimers q) _ (fun q x e => ?_) _ p ⟨rfl, rfl⟩
  have k := q.disturbUnlessDisturbed_reportTimers x.1 (.headFailed h c)
  exact ⟨k.1.trans e.1, k.2.trans e.2⟩

theorem Part.failHead_reportTimers (p : Part) (h : HeadId) (c : HeadCause) :
    p.SameReportTimers (p.failHead h c) := by
  simp only [Part.failHead]
  split
  · exact ⟨(Part.outOfService_reportTimers _ h c).1.trans (ReportUnit.offer_keeps ..).2.2.2.1,
      (Part.outOfService_reportTimers _ h c).2.trans (ReportUnit.offer_keeps ..).2.2.2.2.1⟩
  · exact ⟨(ReportUnit.offer_keeps ..).2.2.2.1, (ReportUnit.offer_keeps ..).2.2.2.2.1⟩

theorem Part.silenceExpiry_reportTimers (p : Part) (h : HeadId) :
    p.SameReportTimers (p.silenceExpiry h) := by
  unfold Part.silenceExpiry
  (repeat' split) <;> first
    | exact p.failHead_reportTimers h .silence
    | exact ⟨(ReportUnit.offer_keeps ..).2.2.2.1, (ReportUnit.offer_keeps ..).2.2.2.2.1⟩
    | exact ⟨rfl, rfl⟩

theorem Part.confirmExpiry_reportTimers (p : Part) (i : SectionId) :
    p.SameReportTimers (p.confirmExpiry i) := by
  simp only [Part.confirmExpiry]
  (repeat' split) <;> first
    | exact ⟨(ReportUnit.mark_keeps ..).2.2.2.1, (ReportUnit.mark_keeps ..).2.2.2.2.1⟩
    | exact ⟨rfl, rfl⟩

theorem Part.relayExpiry_reportTimers (p : Part) (l : LinkId) :
    p.SameReportTimers (p.relayExpiry l) := by
  unfold Part.relayExpiry Part.completeRelay
  (repeat' split) <;> first
    | exact ⟨(ReportUnit.offer_keeps ..).2.2.2.1, (ReportUnit.offer_keeps ..).2.2.2.2.1⟩
    | exact ⟨rfl, rfl⟩

/-- The end of an event moves no timer of the report unit. -/
theorem Part.afterEvent_reportTimers (p : Part) : p.SameReportTimers p.afterEvent := by
  have k : ∀ is : List SectionId,
      (is.foldl (fun q i => q.readLatch i) p).report = p.report := fun is =>
    foldl_keeps Part.report (fun q i => q.readLatch i) (fun _ _ => rfl) is p
  unfold Part.SameReportTimers Part.afterEvent Part.unlessReset Part.startTransmission Part.choose
    Part.chooseUnheld
  (repeat' split) <;>
    simp [Part.sendReply, Part.sendReport, Part.sendNotices, Part.sendMirror, Part.transmit, k]

theorem Part.holdExpiry_cycleTimer (p : Part) :
    p.holdExpiry.report.cycleTimer = p.report.cycleTimer := by
  simp only [Part.holdExpiry]
  (repeat' split) <;> first
    | rfl
    | simp [ReportUnit.setHoldExpired]; split <;> rfl

/-! ## Timers of numbered records -/

/-- A silence expiry changes no other head's record. -/
theorem Part.silenceExpiry_head_ne (p : Part) {h k : HeadId} (n : k ≠ h) :
    (p.silenceExpiry h).head k = p.head k := by
  unfold Part.silenceExpiry
  (repeat' split) <;>
    simp [Part.failHead_head, Part.changeHead, Part.head_setHead_eq, n]

/-- A silence expiry leaves a section's confirm timer as it is, or stops it. -/
theorem Part.silenceExpiry_confirm (p : Part) (h : HeadId) (i : SectionId) :
    ((p.silenceExpiry h).sec i).confirm = (p.sec i).confirm ∨
      ((p.silenceExpiry h).sec i).confirm = .stopped := by
  unfold Part.silenceExpiry
  (repeat' split) <;> try exact .inl (by simp [Part.changeHead])
  rw [Part.failHead_sec]
  split
  · unfold SectionRec.disturbUnlessDisturbed
    split
    · exact .inl rfl
    · exact .inr rfl
  · exact .inl rfl

/-- A confirm expiry changes no other section's record. -/
theorem Part.confirmExpiry_sec_ne (p : Part) {i j : SectionId} (n : j ≠ i) :
    (p.confirmExpiry i).sec j = p.sec j := by
  simp only [Part.confirmExpiry]
  (repeat' split) <;> simp [Part.sec_setSec_eq, n]

/-- A relay timer's expiry changes no other link's record. -/
theorem Part.relayExpiry_link_ne (p : Part) {l m : LinkId} (n : m ≠ l) :
    (p.relayExpiry l).link m = p.link m := by
  unfold Part.relayExpiry Part.completeRelay
  (repeat' split) <;> simp [Part.link_setLink_eq, n]

/-- The end of an event stops and starts no confirm timer. -/
theorem Part.afterEvent_confirm (p : Part) (i : SectionId) :
    (p.afterEvent.sec i).confirm = (p.sec i).confirm := by
  obtain ⟨latch, e⟩ := p.afterEvent_sec i
  rw [e]

end Sys2Proof.Machine
end

