-- ==== Sys2Proof/WellFormed.lean ====
section
/-! DEFINITION. Which commands spell what their row names. `exec` gives every command a meaning,
well formed or not: the octets, the straps and the kind octet decide what happens. These checks say
which commands are the row's own event. -/

namespace Sys2Proof

/-- A body fits a telegram: with its kind octet and CRC, its length octet lies in 4 to 37 (R50). -/
def bodyFits (body : List Octet) : Bool :=
  decide (1 ≤ body.length) && decide (body.length ≤ 34)

/-- The octets begin with SYNC in one polarity or the other (R50, R55). -/
def beginsWithSync (octets : List Octet) : Bool :=
  octets.head? == some 0xA7#8 || octets.head? == some 0x58#8

/-- The octet as judged, after the polarity its telegram's SYNC octet shows (R55). -/
def judgedAs (octets : List Octet) (octet : Octet) : Octet :=
  if octets.head? == some 0x58#8 then ~~~octet else octet

/-- The octets end at a third octet that is no length of a telegram (R52). -/
def endsAtBadLength (octets : List Octet) : Bool :=
  match octets with
  | [_, _, length] =>
    let l := judgedAs octets length
    decide (l.toNat < 4) || decide (37 < l.toNat)
  | _ => false

/-- The octets are as many as a telegram of their own length octet has (R50). -/
def wholeTelegram (octets : List Octet) : Bool :=
  match octets with
  | _ :: _ :: length :: rest =>
    let l := (judgedAs octets length).toNat
    decide (4 ≤ l) && decide (l ≤ 37) && decide (rest.length = l)
  | _ => false

/-- The kind octets of the catalogue of requests (R164, R166). -/
def isRequestKind (kind : Octet) : Bool :=
  decide (0x10 ≤ kind.toNat) && decide (kind.toNat ≤ 0x23)

/-- The well-formed commands. -/
def Instr.wellFormed (i : Instr) : Bool :=
  match i with
  | .fullReset _ => true
  | .addressStrapChange address => decide (address ≠ 0)
  | .rateStrapChange _ => true
  | .syncMiss _ octet => decide (octet ≠ 0xA7#8)
  | .lengthBadFrame _ octets => beginsWithSync octets && endsAtBadLength octets
  | .charTimeout _ octets => decide (octets.length < 40)
  | .crcBadFrame _ octets => beginsWithSync octets && wholeTelegram octets
  | .quietInterval _ => true
  | .headStatusTelegram _ octets => beginsWithSync octets && wholeTelegram octets
  | .silenceExpiry _ => true
  | .confirmExpiry _ => true
  | .relayTransmissionStart _ => true
  | .relayTransmissionEnd _ => true
  | .relayTimerExpiry _ => true
  | .statusQuery body => bodyFits body
  | .sectionQuery body => bodyFits body
  | .start body => bodyFits body
  | .halt body => bodyFits body
  | .sectionReset body => bodyFits body
  | .headQuery body => bodyFits body
  | .headRelease body => bodyFits body
  | .headAdopt body => bodyFits body
  | .linkQuery body => bodyFits body
  | .headRelay body => bodyFits body
  | .tableWrite body => bodyFits body
  | .tableRead body => bodyFits body
  | .tableCopy body => bodyFits body
  | .tableCheck body => bodyFits body
  | .tableActivate body => bodyFits body
  | .store body => bodyFits body
  | .commission body => bodyFits body
  | .eraseStore body => bodyFits body
  | .writeCompletion _ => true
  | .storeTimerExpiry => true
  | .hold body => bodyFits body
  | .proceed body => bodyFits body
  | .holdLimitExpiry => true
  | .reportCycleExpiry => true
  | .transmissionStart => true
  | .transmissionEnd => true
  | .fullResetEnd event => event != .strapReturned 0
  | .telegramAddressedElsewhere _ _ body => bodyFits body
  | .requestOfUnknownKind kind body => !isRequestKind kind && bodyFits body

end Sys2Proof
end

