-- ==== Sys2Proof/Tests/Slice0.lean ====
section
/-! SUPPORT. The model's own tests: the well-formedness checks each refuse an ill-formed command, values
the spec gives come out of the operations, single commands have the effect of the spec's worked examples,
and the hypotheses of every statement are met by a state and operands. -/

namespace Sys2Proof.Tests

set_option Elab.async false

open Sys2Proof Sys2Proof.Machine

/-! ## Small states -/

/-- The state an outcome answers. -/
def result (o : Host.Outcome State Fault Refusal) : Option State :=
  match o with
  | .next t => some t
  | .fault _ => none
  | .refused _ => none

/-- A present head record of 4.8. -/
def throatHead (link station rock : Octet) (mirror : Bool) : HeadRecord :=
  { present := true, mirror := mirror, link := link, station := station, expected := 0
    silenceTimeout := 300, acquireCount := 4, rockLimit := rock, levelFloor := 5 }

/-- A present section record of 4.8. -/
def throatSection (limit confirm : BitVec 16) (direct : Bool) (boundary : List BoundaryEntry) :
    SectionRecord :=
  { present := true, directReset := direct, countLimit := limit, confirmTime := confirm
    boundary := boundary }

/-- The station throat of 4.8. -/
def throat : Table :=
  { global :=
      { reportCycle := 1000, holdLimit := 2000, startMode := 2
        enabled := #v[true, true, false, false], threshold := #v[4, 4, 4, 4] }
    heads := (((((((Table.blank.heads.set 0 (throatHead 0 1 3 false)).set 1
      (throatHead 0 2 3 false)).set 2 (throatHead 0 3 3 false)).set 3 (throatHead 0 4 3 false)).set 4
      (throatHead 1 1 3 false)).set 5 (throatHead 1 2 3 false)).set 6 (throatHead 1 3 6 true))
    sections := ((((Table.blank.sections.set 0 (throatSection 400 500 false [⟨0, 1⟩, ⟨1, 2⟩])).set 1
      (throatSection 200 1000 false [⟨1, 1⟩, ⟨2, 2⟩, ⟨3, 2⟩])).set 2
      (throatSection 400 500 true [⟨2, 1⟩, ⟨4, 2⟩])).set 3
      (throatSection 400 500 true [⟨3, 1⟩, ⟨5, 2⟩])) }

/-- A head in service at sequence 4 and change count 40. -/
def serving : HeadRec :=
  { HeadRec.reset with
    state := .inService, baseline := some ⟨4, 40⟩, silence := .running 300 }

/-- The throat active and RUNNING, heads 0 to 5 in service, links 0 and 1 LOCKED in WAIT, and its four
sections CLEAR with number 1; the table CRC is not looked at and stands as 0x1234. -/
def yard : State :=
  { State.reset with
    links := (State.reset.links.set 0
      { LinkRec.reset with mode := .locked .direct .wait }).set 1
      { LinkRec.reset with mode := .locked .inverted .hunt, run := 3 }
    heads := (((((State.reset.heads.set 0 serving).set 1 serving).set 2 serving).set 3 serving).set 4
      serving).set 5 serving
    evaluator := .running
    sections := (((State.reset.sections.set 0
      { SectionRec.reset with state := .clear, number := 1 }).set 1
      { SectionRec.reset with state := .clear, number := 1 }).set 2
      { SectionRec.reset with state := .clear, number := 1 }).set 3
      { SectionRec.reset with state := .clear, number := 1 }
    tables :=
      { active := some ⟨throat, 0x1234⟩, staging := throat, stagingState := .checked 0x1234
        lastCheck := .pass 0x1234 }
    report := { ReportUnit.reset with cycleTimer := .running 1000 } }

/-- The yard with a section's record in another state. -/
def yardAt (i : SectionId) (r : SectionRec) : State := { yard with toPart := yard.toPart.setSec i r }

/-- The yard with a head's record in another state. -/
def yardHead (h : HeadId) (r : HeadRec) : State := { yard with toPart := yard.toPart.setHead h r }

/-- The yard with a link's record in another state. -/
def yardLink (l : LinkId) (k : LinkRec) : State := { yard with toPart := yard.toPart.setLink l k }

/-- The yard with a decoder's record in another state. -/
def yardDecoder (h : HeadId) (d : DecoderRec) : State :=
  { yard with toPart := yard.toPart.setDecoder h d }

/-- The yard with another state of the image store. -/
def yardImage (m : ImageStore) : State := { yard with image := m }

/-- The part held in full reset at power-on. -/
def heldPart : State := { State.reset with pins := { Pins.afterReset with powerOnHold := true } }

/-- The line held, so that what is marked and offered stays in its queue. -/
def onHold (s : State) : State := { s with report := { s.report with held := true } }

/-- The octets of a head's status telegram on a DIRECT link. -/
def statusTelegram (station flags count phases : Octet) (changes : List Octet) : List Octet :=
  onTheWire .direct station 0x01 ([flags, count, phases] ++ changes)

/-- A relay command of head 0. -/
def relayOf (stage : RelayStage) : RelayCommand :=
  { target := .head 0, station := 1, code := .restart, tag := 6, stage := stage }

/-- A telegram on the count-line transmitter that carries both flags set. -/
def flagged : UpTelegram :=
  { kind := .notice, octets := [0xA7], notedOverrun := true, notedHoldExpired := true }

/-! ## Each well-formedness check refuses an ill-formed command -/

theorem test_wellFormed_refuses_an_empty_body : (Instr.start []).wellFormed = false := by decide

theorem test_wellFormed_refuses_a_long_body :
    (Instr.tableWrite (List.replicate 35 0)).wellFormed = false := by decide

theorem test_wellFormed_refuses_strap_zero_as_a_change :
    (Instr.addressStrapChange 0).wellFormed = false ∧
      (Instr.fullResetEnd (.strapReturned 0)).wellFormed = false := by decide

theorem test_wellFormed_refuses_sync_as_a_miss :
    (Instr.syncMiss .countLine 0xA7).wellFormed = false := by decide

theorem test_wellFormed_refuses_octets_without_sync :
    (Instr.lengthBadFrame .countLine [0x00, 1, 3]).wellFormed = false ∧
      (Instr.crcBadFrame .countLine [0x00, 1, 4, 1, 0, 0, 0]).wellFormed = false ∧
      (Instr.headStatusTelegram 0 [0x00, 1, 4, 1, 0, 0, 0]).wellFormed = false := by decide

theorem test_wellFormed_refuses_a_good_length_as_bad :
    (Instr.lengthBadFrame .countLine [0xA7, 1, 4]).wellFormed = false ∧
      (Instr.lengthBadFrame (.headLink 0) [0x58, 0xFE, 0xFB]).wellFormed = false := by decide

theorem test_wellFormed_refuses_a_partial_telegram :
    (Instr.crcBadFrame .countLine [0xA7, 1, 4, 1, 0, 0]).wellFormed = false ∧
      (Instr.headStatusTelegram 0 [0xA7, 1]).wellFormed = false := by decide

theorem test_wellFormed_refuses_more_octets_than_a_telegram :
    (Instr.charTimeout .countLine (List.replicate 40 0xA7)).wellFormed = false := by decide

theorem test_wellFormed_refuses_a_known_kind_as_unknown :
    (Instr.requestOfUnknownKind 0x10 [1]).wellFormed = false ∧
      (Instr.requestOfUnknownKind 0x24 []).wellFormed = false := by decide

theorem test_wellFormed_accepts :
    (Instr.addressStrapChange 15).wellFormed = true ∧
      (Instr.syncMiss .countLine 0x58).wellFormed = true ∧
      (Instr.lengthBadFrame (.headLink 0) [0x58, 0xFE, 0xFC]).wellFormed = true ∧
      (Instr.crcBadFrame .countLine [0xA7, 1, 4, 1, 0, 0, 0]).wellFormed = true ∧
      (Instr.requestOfUnknownKind 0x24 (List.replicate 34 0)).wellFormed = true := by decide

/-! ## Values that the spec gives -/

/-- The check value of R86. -/
theorem test_crc_of_the_check_string :
    crc16 [0x31, 0x32, 0x33, 0x34, 0x35, 0x36, 0x37, 0x38, 0x39] = 0x29B1 := by decide +kernel

theorem test_throat_passes_every_check : throat.firstFailure = none := by decide +kernel

/-- 4.9: a head that is not present fails C3 at section 4. -/
theorem test_throat_with_an_absent_head_fails_c3 :
    ({ throat with
      sections := throat.sections.set 4 (throatSection 400 500 true [⟨0, 1⟩, ⟨9, 2⟩]) } :
        Table).firstFailure =
      some { code := .c3, kind := .sectionRecord, number := 4 } := by decide +kernel

/-- 4.8: the station map, and the boundary index of heads 1 and 6. -/
theorem test_throat_indexes :
    throat.stationMap 1 3 = some 6 ∧ throat.stationMap 1 4 = none ∧
      throat.boundaryIndex 1 = [(0, 2), (1, 1)] ∧ throat.boundaryIndex 6 = [] := by decide +kernel

/-- 1.9: the first wheel of the cut, from rock count 2 and tallies 1 200 and 37. -/
theorem test_decoder_counts_the_first_wheel_of_the_cut :
    ([Phase.aOnly, .both, .bOnly, .free].foldl (fun (d : DecoderRec) e => (d.judge 4 e).1)
      { phase := .free, side := .none, rock := 2, tallyAB := 1200, tallyBA := 37 }) =
    { phase := .free, side := .none, rock := 0, tallyAB := 1201, tallyBA := 37 } := by decide

/-- 1.11: the third return on side B reaches the rock limit 3. -/
theorem test_decoder_rocks_at_its_limit :
    DecoderRec.judge
      { phase := .bOnly, side := .b, rock := 2, tallyAB := 880, tallyBA := 902 } 3 .free =
    ({ phase := .free, side := .none, rock := 0, tallyAB := 880, tallyBA := 902 }, .rocking .b) := by
  decide

/-! ## Single commands -/

theorem test_full_reset_holds_the_part :
    (result (exec (.fullReset .resetPin) yard)).map (fun t =>
      (t.toPart.inReset, t.evaluator, t.head 0 == HeadRec.reset)) =
    some (true, .unconfigured, true) := by decide +kernel

theorem test_pin_release_starts_the_part_up :
    (result (exec (.fullResetEnd .powerOnComplete) heldPart)).map (fun t =>
      (t.toPart.inReset, t.evaluator, t.image.state)) =
    some (false, .unconfigured, .empty) := by decide +kernel

theorem test_address_strap :
    (result (exec (.addressStrapChange 9) yard)).map (fun t => t.pins.address) = some 9 := by
  decide +kernel

theorem test_rate_strap_drops_a_telegram :
    (result (exec (.rateStrapChange .high)
      (yardLink 0 { LinkRec.reset with mode := .locked .direct (.frame [1, 9]) }))).map (fun t =>
        ((t.link 0).mode, (t.link 0).counts.charTimeout, (t.link 0).run)) =
    some (.locked .direct .hunt, 1, 1) := by decide +kernel

/-- 3.7, event 3: the bad frame that reaches the threshold fails heads 4 and 5. -/
theorem test_link_is_lost :
    (result (exec (.syncMiss (.headLink 1) 0xA7)
      (onHold (yardLink 1 { LinkRec.reset with mode := .locked .inverted .wait, run := 3 })))).map
        (fun t => ((t.link 1).mode, (t.head 5).lastCause, (t.sec 3).cause, t.report.queue,
          t.report.notices.length)) =
    some (.search none, .linkLost, .headFailed 5 .linkLost, [2, 3], 3) := by decide +kernel

theorem test_bad_frames_are_counted :
    (result (exec (.lengthBadFrame (.headLink 0) [0xA7, 1, 3]) yard)).map (fun t =>
        (t.link 0).counts.length) = some 1 ∧
      (result (exec (.charTimeout .countLine [0xA7, 1]) yard)).map (fun t =>
        t.count.counts.charTimeout) = some 1 ∧
      (result (exec (.crcBadFrame .countLine [0xA7, 1, 4, 1, 0, 0, 0]) yard)).map (fun t =>
        t.count.counts.crc) = some 1 ∧
      (result (exec (.quietInterval (.headLink 1)) yard)).map (fun t => (t.link 1).mode) =
        some (.locked .inverted .wait) := by decide +kernel

/-- 5.8: a wheel AB at head 1 leaves section 0 and enters section 1. -/
theorem test_wheel_moves_two_sections :
    (result (exec (.headStatusTelegram 0 (statusTelegram 2 0x50 44 4 [1, 3, 2, 0]))
      (onHold (yardAt 0 { SectionRec.reset with
        state := .occupied, count := 8, number := 3 })))).map (fun t =>
          ((t.sec 0).state, (t.sec 0).count, (t.sec 1).state, (t.sec 1).count, t.report.queue)) =
    some (.occupied, 7, .occupied, 1, [0, 1]) := by decide +kernel

/-- 2.12: a telegram of sequence 6 after 4 with two unseen changes fails the head. -/
theorem test_unseen_changes_fail_the_head :
    (result (exec (.headStatusTelegram 0 (statusTelegram 2 0x60 44 0xC2 [1, 3])) yard)).map (fun t =>
        ((t.head 1).state, (t.head 1).lastCause, (t.head 1).baseline, (t.sec 0).state)) =
    some (.failed, .sequenceLoss, some ⟨6, 44⟩, .disturbed) := by decide +kernel

/-- 2.11: the same gap with no change unseen is bridged. -/
theorem test_gap_is_bridged :
    (result (exec (.headStatusTelegram 0 (statusTelegram 2 0x60 42 0xC2 [1, 3]))
      (onHold yard))).map (fun t =>
        ((t.head 1).state, (t.decoder 1).phase, (t.decoder 1).side, t.report.notices)) =
    some (.inService, .both, .a, [.gapBridged 1 1]) := by decide +kernel

theorem test_silence_fails_the_head :
    (result (exec (.silenceExpiry 4) yard)).map (fun t =>
      ((t.head 4).state, (t.sec 2).cause, (t.sec 0).state)) =
    some (.failed, .headFailed 4 .silence, .clear) := by decide +kernel

theorem test_confirm_expiry_clears :
    (result (exec (.confirmExpiry 0)
      (yardAt 0 { SectionRec.reset with state := .clearing, confirm := .running 7 }))).map (fun t =>
        (t.sec 0).state) = some .clear := by decide +kernel

/-- 3.8, events 4 to 6: a RESTART of tag 6 goes out, waits for its echo, and is answered. -/
theorem test_relay_goes_out_and_is_echoed :
    (result (exec (.relayTransmissionStart 0)
      (yardLink 0 { LinkRec.reset with
        mode := .locked .direct .wait, queue := [relayOf .waiting] }))).map (fun t =>
          (t.link 0).transmitter) = some (some (telegram 1 0x02 [0x06])) ∧
      (result (exec (.relayTransmissionEnd 0)
        (yardLink 0 { LinkRec.reset with
          mode := .locked .direct .wait, transmitter := some []
          queue := [relayOf .transmitting] }))).map (fun t =>
            ((t.link 0).timer, (t.link 0).queue)) =
        some (.running 200, [relayOf .awaitingEcho]) ∧
      (result (exec (.headStatusTelegram 0 (onTheWire .direct 1 0x01 [0x52, 40, 0, 0x06]))
        (onHold (yardLink 0 { LinkRec.reset with
          mode := .locked .direct .wait, queue := [relayOf .awaitingEcho]
          timer := .running 10 })))).map (fun t => ((t.link 0).queue, t.report.notices)) =
        some ([], [.relayResult 0 (.head 0) 1 .restart 6 .done]) := by decide +kernel

theorem test_relay_timer_ends_without_echo :
    (result (exec (.relayTimerExpiry 0)
      (onHold (yardLink 0 { LinkRec.reset with
        mode := .locked .direct .wait, queue := [relayOf .awaitingEcho]
        timer := .running 1 })))).map (fun t => t.report.notices) =
    some [.relayResult 0 (.head 0) 1 .restart 6 .noEcho] := by decide +kernel

theorem test_queries_answer :
    (result (exec (.statusQuery [7]) yard)).map (fun t =>
        t.count.replies.map fun r => (r.kind, r.items.take 4)) =
        some [(0x10, [3, 1, 0x12, 0x34])] ∧
      (result (exec (.sectionQuery [7, 2]) yard)).map (fun t =>
        t.count.replies.map fun r => r.items) =
        some [[3, 1, 2, 0, 0, 1, 0, 0, 0, 0, 0, 0, 0, 0, 0]] ∧
      (result (exec (.headQuery [7, 4]) yard)).map (fun t =>
        t.count.replies.map fun r => r.items.take 4) = some [[1, 1, 1, 3]] ∧
      (result (exec (.linkQuery [7, 1]) yard)).map (fun t =>
        t.count.replies.map fun r => r.items.take 5) = some [[3, 2, 3, 1, 4]] := by decide +kernel

theorem test_start_and_halt :
    (result (exec (.start [7]) { yard with evaluator := .halted })).map (fun t => t.evaluator) =
        some .running ∧
      (result (exec (.halt [7]) (onHold yard))).map (fun t =>
        (t.evaluator, (t.sec 3).state, (t.sec 3).number, t.report.queue)) =
        some (.halted, .disturbed, 2, [0, 1, 2, 3]) := by decide +kernel

/-- 6.10: a reset that quotes an old number is STALE; one that quotes the current is taken. -/
theorem test_section_reset :
    (result (exec (.sectionReset [7, 3, 1, 7])
      (yardAt 3 { SectionRec.reset with state := .disturbed, number := 8 }))).map (fun t =>
        t.count.replies.map fun r => (r.outcome, r.items)) =
        some [(.refused .stale, [8])] ∧
      (result (exec (.sectionReset [7, 3, 1, 8])
        (yardAt 3 { SectionRec.reset with state := .disturbed, number := 8 }))).map (fun t =>
          ((t.sec 3).state, t.count.replies.map fun r => r.items)) =
        some (.restoring, [[3, 5, 8]]) := by decide +kernel

theorem test_head_release_and_adopt :
    (result (exec (.headRelease [7, 2]) (yardHead 2 { serving with state := .failed }))).map (fun t =>
        ((t.head 2).state, (t.head 2).baseline)) = some (.absent, none) ∧
      (result (exec (.headAdopt [7, 2]) (yardHead 2 { serving with learned := some 0x3A71C0 }))).map
        (fun t => ((t.tables.staging.headCfg 2).expected, t.tables.stagingState)) =
        some (0x3A71C0, .editing) := by decide +kernel

theorem test_head_relay_is_accepted :
    (result (exec (.headRelay [7, 1, 0, 2]) yard)).map (fun t =>
      ((t.link 0).queue.length, (t.link 0).tag, t.count.replies.map fun r => r.items)) =
    some (1, 1, [[0, 0]]) := by decide +kernel

theorem test_table_requests :
    (result (exec (.tableWrite ([7, 3, 23] ++ encodeSection SectionRecord.blank)) yard)).map (fun t =>
        t.tables.stagingState) = some .editing ∧
      (result (exec (.tableRead [7, 1, 2, 6]) yard)).map (fun t =>
        t.count.replies.map fun r => r.items.drop 11) = some [[0x12, 0x34]] ∧
      (result (exec (.tableCopy [7]) yard)).map (fun t => t.count.replies.map fun r => r.items) =
        some [[0x12, 0x34]] := by decide +kernel

theorem test_table_check_fails_a_blank_table :
    (result (exec (.tableCheck [7]) State.reset)).map (fun t =>
      t.count.replies.map fun r => (r.outcome, r.items)) =
    some [(.refused .notChecked, [1, 1, 0])] := by decide +kernel

/-- The throat made active over no table disturbs its four sections (R133). -/
theorem test_table_activate :
    (result (exec (.tableActivate [7, 0x12, 0x34])
      (onHold { State.reset with
        tables := { TableManager.reset with
          staging := throat, stagingState := .checked 0x1234 } }))).map (fun t =>
        (t.evaluator, t.report.queue, (t.sec 1).cause, (t.link 1).mode, (t.link 2).mode)) =
    some (.halted, [0, 1, 2, 3], .reconfigured, .search none, .off) := by decide +kernel

/-- A store operation in flight over the body given. -/
def storing (op : StoreOp) (crc : Crc) : ImageStore :=
  { image := ⟨.writing, ⟨throat, crc⟩⟩, state := .invalid, op := op, timer := .running 1 }

/-- A stored throat, with none in flight. -/
def stored (marker : Marker) (state : ImageState) (crc : Crc) : ImageStore :=
  { image := ⟨marker, ⟨throat, crc⟩⟩, state := state, op := .none, timer := .stopped }

theorem test_store_and_its_end :
    (result (exec (.store [7]) yard)).map (fun t =>
        (t.image.image.marker, t.image.state, t.image.timer)) =
        some (.writing, .invalid, .running 250) ∧
      (result (exec .storeTimerExpiry (onHold (yardImage (storing .erase 0))))).map (fun t =>
        (t.image.op == .none, t.report.notices)) =
        some (true, [.storeResult .erase .timeout .invalid none]) ∧
      (result (exec (.writeCompletion none) (yardImage (storing .erase 0)))).map (fun t =>
        (t.image.image.marker, t.image.state)) = some (.blank, .empty) := by decide +kernel

/-- What reads back with another CRC than the one copied is VERIFY_FAIL, and marker WRITING (R160). -/
theorem test_store_that_reads_back_otherwise_fails :
    (result (exec (.writeCompletion (some Table.blank))
      (yardImage (storing (.store throat 0x1234) 0)))).map (fun t =>
        (t.image.image.marker, t.image.state, t.image.image.body.table == Table.blank)) =
    some (.writing, .invalid, true) := by decide +kernel

theorem test_erase_of_a_commissioned_part :
    (result (exec (.eraseStore [7])
      (yardImage (stored .commissioned .validCommissioned 0x1234)))).map (fun t =>
        (t.image.op == .erase, t.image.image.marker)) = some (true, .writing) ∧
      (result (exec (.commission [7]) (yardImage (stored .valid .valid 0x1234)))).map (fun t =>
        (t.image.op == .commission, t.image.state)) = some (true, .invalid) := by decide +kernel

theorem test_hold_and_proceed :
    (result (exec (.hold [7]) yard)).map (fun t => (t.report.held, t.report.holdTimer)) =
        some (true, .running 2000) ∧
      (result (exec (.proceed [7]) yard)).map (fun t =>
        t.count.replies.map fun r => r.outcome) = some [.refused .state] ∧
      (result (exec .holdLimitExpiry { yard with
        report := { yard.report with held := true, holdTimer := .running 1 } })).map (fun t =>
          (t.report.held, t.report.holdExpired)) = some (false, true) := by decide +kernel

theorem test_report_cycle_marks_every_section :
    (result (exec .reportCycleExpiry (onHold yard))).map (fun t => t.report.queue) =
      some [0, 1, 2, 3] := by decide +kernel

theorem test_transmission :
    (result (exec .transmissionStart { yard with
      report := { yard.report with queue := [0, 1, 2, 3, 4] } })).map (fun t =>
        (t.report.queue, t.report.transmitter.map fun u => u.octets.take 7)) =
      some ([4], some [0xA7, 1, 34, 0x41, 3, 0, 0]) ∧
      (result (exec .transmissionEnd { yard with
        report := { yard.report with transmitter := some flagged, overrun := true } })).map (fun t =>
          (t.report.transmitter, t.report.overrun)) = some (none, false) := by decide +kernel

/-- R155: a mark that finds the transmitter idle starts it at once, so a HOLD taken after it comes too
late, and a reply placed meanwhile waits for the last octet. -/
theorem test_a_mark_starts_the_transmitter_at_once :
    let marked := (result (exec (.silenceExpiry 0) yard)).getD yard
    let held := (result (exec (.hold [7]) marked)).getD yard
    let ended := (result (exec .transmissionEnd held)).getD yard
    (marked.report.queue, marked.report.transmitter.map fun u => u.kind) = ([], some .report) ∧
      (held.report.transmitter.map (fun u => u.kind), held.count.replies.length) =
        (some .report, 1) ∧
      ended.report.transmitter.map (fun u => u.kind) = some .reply := by decide +kernel

/-- R155: a good telegram and the link loss that follows it in one CHAR_TIMEOUT are two events: what the
telegram marked is on the line before the loss marks the rest. -/
theorem test_each_octet_is_taken_whole :
    let s : State := { yardDecoder 1 { DecoderRec.reset with phase := .bOnly, side := .a } with
      tables := { yard.tables with
        active := some ⟨{ throat with
          global := { throat.global with threshold := #v[1, 1, 1, 1] } }, 7⟩ } }
    (result (exec (.charTimeout (.headLink 0) (statusTelegram 2 0x50 41 1 [0] ++ [0xA7])) s)).map
      (fun t => (t.report.transmitter.map (fun u => u.octets.length), t.report.queue,
        t.report.notices.length, (t.link 0).mode)) =
    some (some 23, [1, 2, 3], 5, .search none) := by decide +kernel

/-- R60: on an INVERTED link a mirrored head's telegram is copied in DIRECT sense; head 6 mirrors. -/
theorem test_mirror_is_copied :
    (result (exec (.headStatusTelegram 1 (onTheWire .inverted 3 0x01 [0x50, 40, 0]))
      (onHold yard))).map (fun t => (t.report.mirrors, (t.head 6).state)) =
    some ([⟨1, framed 3 0x01 [0x50, 40, 0]⟩], .acquiring) := by decide +kernel

theorem test_telegrams_by_address :
    (result (exec (.telegramAddressedElsewhere 2 0x13 [7]) yard)).map (fun t =>
        (t.evaluator, t.count.replies)) = some (.running, []) ∧
      (result (exec (.requestOfUnknownKind 0x24 [7]) yard)).map (fun t =>
        t.count.replies) =
        some [{ tag := 7, kind := 0x24, outcome := .refused .format, items := [] }] := by
  decide +kernel

/-! ## The hypotheses of the statements are met -/

/-- The part held in full reset over a stored throat. -/
def storedPart (marker : Marker) (crc : Crc) : State :=
  { heldPart with image := stored marker .empty crc }

/-- A LOCKED link in WAIT with a run of bad frames. -/
def lockedRun (run : Nat) : LinkRec :=
  { LinkRec.reset with mode := .locked .direct .wait, run := run }

/-- A link in SEARCH with no candidate. -/
def searching : LinkRec := { LinkRec.reset with mode := .search none }

/-- A heartbeat at FREE of sequence 5 and change count 40. -/
def heartbeat : HeadTelegram :=
  { station := 1, sequence := 5, restart := false, changeCount := 40, phase := .free, changes := []
    health := none, echo := none }

/-- A decoder part way through a passage that began on A. -/
def passing (phase : Phase) : DecoderRec :=
  { phase := phase, side := .a, rock := 0, tallyAB := 0, tallyBA := 0 }

/-- The yard with an evaluator state. -/
def yardIn (e : EvaluatorState) : State := { yard with evaluator := e }

theorem test_meets_StepRunsFrontCommand :
    ({ yard with pending := [.start [7]] } : State).pending = Instr.start [7] :: [] := by decide

theorem test_meets_EmptyQueueLetsAMillisecondPass :
    yard.pending = [] ∧ yard.settled ∧ (∀ l, ¬ (yard.link l).mayTransmit) ∧
      ((yardLink 1 { lockedRun 0 with queue := [relayOf .waiting] }).link 1).mayTransmit ∧
      (let s := yardHead 0 { serving with silence := .running 1 }
       s.settled ∧ s.toPart.countDown.expiries = [.silenceExpiry 0]) := by
  refine ⟨by decide, by unfold State.settled State.awake; decide +kernel, ?_, ?_,
    by unfold State.settled State.awake; decide +kernel⟩
  · rintro l ⟨_, _, c, rest, h, _⟩
    fin_cases l <;> exact nomatch h
  · exact ⟨by decide +kernel, ⟨.direct, .wait, by decide +kernel, nofun⟩, relayOf .waiting, [],
      by decide +kernel, by decide⟩

/-- What an empty queue does: the silence expiry that ends within the millisecond is taken, and a relay
telegram that may start starts before a millisecond passes. -/
theorem test_empty_queue :
    (result (step (yardHead 0 { serving with silence := .running 1 }))).map (fun t =>
        ((t.head 0).state, (t.head 1).silence)) = some (.failed, .running 299) ∧
      (result (step (yardLink 1 { lockedRun 0 with queue := [relayOf .waiting] }))).map (fun t =>
        ((t.link 1).transmitter.isSome, (t.head 1).silence)) = some (true, .running 300) := by
  decide +kernel

/-- Both ways in: a full reset, and the start-up that ends one and finds sections present. -/
theorem test_meets_ResetOfHeadsDecodersAndCountLine :
    (result (exec (.fullReset .strapZero) yard)).map (fun t => t.toPart.inReset) = some true ∧
      (storedPart .valid (tableCrc throat)).toPart.inReset = true ∧
      (result (exec (.fullResetEnd .powerOnComplete)
        (storedPart .valid (tableCrc throat)))).map (fun t =>
          (t.toPart.inReset, (t.sectionCfg 3).present)) = some (false, true) := by
  decide +kernel

/-- Both markers, and both start modes. -/
theorem test_meets_StartUpLoadsTheImage :
    (storedPart .valid 0).toPart.inReset = true ∧
      ((storedPart .valid 0).toPart.setPins
        ((storedPart .valid 0).pins.endReset .powerOnComplete)).inReset = false ∧
      (∀ marker crc, (storedPart marker crc).image.image.body = ⟨throat, crc⟩) ∧
      (storedPart .valid 0).image.image.marker = .valid ∧
      (storedPart .commissioned 0).image.image.marker = .commissioned ∧
      throat.global.startMode = 2 ∧
      ({ throat with global := { throat.global with startMode := 1 } } : Table).global.startMode = 1 :=
  ⟨by decide, by decide, fun _ _ => rfl, by decide, by decide, by decide, by decide⟩

/-- BLANK, WRITING, and a body whose CRC is another. -/
theorem test_meets_StartUpFindsNoTable :
    heldPart.toPart.inReset = true ∧
      (heldPart.toPart.setPins (heldPart.pins.endReset .powerOnComplete)).inReset = false ∧
      heldPart.image.image.marker = .blank ∧ (storedPart .writing 0).image.image.marker = .writing ∧
      (storedPart .valid (tableCrc throat + 1)).image.image.marker = .valid ∧
      tableCrc throat ≠ tableCrc throat + 1 := by
  decide +kernel

/-- A part held by its pin as well as by power-on stays in reset at power-on complete. -/
theorem test_meets_HeldInResetNothingHappens :
    heldPart.toPart.inReset = true ∧
      (∀ cause, Instr.start [7] ≠ .fullReset cause) ∧
      (∀ event, Instr.start [7] ≠ .fullResetEnd event) ∧
      (∀ address, Instr.start [7] ≠ .addressStrapChange address) ∧
      (∀ rate, Instr.start [7] ≠ .rateStrapChange rate) ∧
      (let s : State := { heldPart with pins := { heldPart.pins with resetHold := true } }
       s.toPart.inReset = true ∧
         (s.toPart.setPins (s.pins.endReset .powerOnComplete)).inReset = true) ∧
      yard.awake := by
  refine ⟨by decide, nofun, nofun, nofun, nofun, by decide, ?_⟩
  unfold State.awake; decide

theorem test_meets_AddressStrapChanges :
    (15 : BitVec 4) ≠ 0 ∧ (1 : BitVec 4) ≠ 0 ∧ yard.awake ∧ heldPart.toPart.inReset = true := by
  unfold State.awake; decide

/-- A link in FRAME one bad frame below its threshold of 4, and one that reaches it. -/
theorem test_meets_RateStrapChanges :
    ((yardLink 0 { lockedRun 3 with mode := .locked .direct (.frame []) }).link 0).run + 1 =
      yard.threshold 0 ∧
    let s := yardLink 0 { lockedRun 2 with mode := .locked .direct (.frame [1]) }
    s.awake ∧ s.pins.rate ≠ .high ∧
      (s.link 0).mode = .locked .direct (.frame [1]) ∧ (s.link 0).run + 1 < s.threshold 0 ∧
      (∀ l, l ≠ 0 → ∀ pol octets, (s.link l).mode ≠ .locked pol (.frame octets)) := by
  refine ⟨by decide +kernel, by unfold State.awake; decide, by decide, by decide +kernel,
    by decide +kernel, ?_⟩
  intro l h pol octets
  fin_cases l
  · exact absurd rfl h
  · exact nofun
  · exact nofun
  · exact nofun

/-- WAIT and HUNT; lengths 3 and 38; octets that do and do not make a telegram. -/
theorem test_meets_CountLineReceives :
    yard.settled ∧ yard.count.rx = .wait ∧
      ({ yard with count := { yard.count with rx := .hunt } } : State).count.rx = .hunt ∧
      (0x58 : Octet) ≠ 0xA7 ∧ (3 : Octet).toNat < 4 ∧ 37 < (38 : Octet).toNat ∧
      incomplete [] ∧ incomplete [1, 4, 0, 0, 0] ∧
      complete [1, 4, 0, 0, 0, 0] ∧ passesCrc [1, 4, 0, 0, 0, 0] = false := by
  unfold State.settled State.awake; simp only [incomplete, complete]; decide +kernel

/-- Run 2 against the threshold of 4, in both polarities. -/
theorem test_meets_HeadLinkCountsBadFrames :
    (yardLink 0 (lockedRun 2)).settled ∧ yard.settled ∧
      ((yardLink 0 (lockedRun 2)).link 0).listening .direct .wait ∧
      ((yardLink 0 (lockedRun 2)).link 0).run + 1 < (yardLink 0 (lockedRun 2)).threshold 0 ∧
      (yard.link 1).listening .inverted .hunt ∧ Polarity.inverted.apply 0xA7 ≠ 0xA7 ∧
      Polarity.direct.apply 0x58 ≠ 0xA7 := by
  unfold State.settled State.awake LinkRec.listening; decide +kernel

/-- Run 3 against the threshold of 4: the next bad frame reaches it, of each kind, in WAIT, HUNT and
FRAME. -/
theorem test_meets_HeadLinkIsLost :
    let s := yardLink 0 { lockedRun 3 with queue := [relayOf .waiting, relayOf .waiting] }
    s.settled ∧ (s.link 0).listening .direct .wait ∧ (yard.link 1).listening .inverted .hunt ∧
      s.threshold 0 ≤ (s.link 0).run + 1 ∧ yard.threshold 1 ≤ (yard.link 1).run + 1 ∧
      Polarity.direct.apply 0x58 ≠ 0xA7 ∧ (3 : Octet).toNat < 4 ∧ 37 < (38 : Octet).toNat ∧
      incomplete [] ∧ complete [1, 4, 0, 0, 0, 0] ∧ passesCrc [1, 4, 0, 0, 0, 0] = false ∧
      parseHeadStatus 0 0x01 [0x50, 40, 0] = none ∧
      (s.activeTable.headsOfLink 0).filter (fun h => decide ((s.head h).state = .acquiring) ||
        decide ((s.head h).state = .inService)) = [0, 1, 2, 3] ∧
      (let f := yardLink 0 { lockedRun 3 with mode := .locked .direct (.frame [1]) }
       f.awake ∧ (f.link 0).mode = .locked .direct (.frame [1]) ∧ (f.link 0).transmitter = none ∧
         f.threshold 0 ≤ (f.link 0).run + 1) := by
  unfold State.settled State.awake LinkRec.listening; simp only [incomplete, complete]
  decide +kernel

theorem test_meets_QuietIntervalReturnsToWait :
    yard.awake ∧ (yard.link 1).listening .inverted .hunt ∧
      (let s := yardLink 0 { lockedRun 2 with mode := .locked .direct (.frame [1]) }
       (s.link 0).mode = .locked .direct (.frame [1]) ∧ (s.link 0).transmitter = none ∧
         (s.link 0).run + 1 < s.threshold 0) ∧
      (let s := yardLink 0 { searching with mode := .search (some (.inverted, [1])) }
       s.awake ∧ (s.link 0).mode = .search (some (.inverted, [1])) ∧
         (s.link 0).transmitter = none) ∧
      yard.settled ∧ (yard.link 3).mode = .off ∧
      (let s := yardLink 0 { lockedRun 0 with transmitter := some [0xA7] }
       s.settled ∧ (s.link 0).transmitter ≠ none) := by
  unfold State.settled State.awake LinkRec.listening; decide +kernel

/-- Candidates of station 8, where no head stands, of station 1, and of station 0, which is FORMAT. -/
theorem test_meets_SearchLocksOnTheFirstGoodTelegram :
    let s := yardLink 0 searching
    s.settled ∧ (s.link 0).mode = .search none ∧ (s.link 0).transmitter = none ∧
      (0x00 : Octet) ≠ 0xA7 ∧ (0x00 : Octet) ≠ 0x58 ∧ (3 : Octet).toNat < 4 ∧
      37 < (38 : Octet).toNat ∧ incomplete [1] ∧ complete [1, 4, 0, 0, 0, 0] ∧
      passesCrc [1, 4, 0, 0, 0, 0] = false ∧
      parseHeadStatus 8 0x01 [0x50, 40, 0] = some { heartbeat with station := 8 } ∧
      s.activeTable.stationMap 0 8 = none ∧
      parseHeadStatus 1 0x01 [0x50, 40, 0] = some heartbeat ∧
      s.activeTable.stationMap 0 1 = some 0 ∧ parseHeadStatus 0 0x01 [0x50, 40, 0] = none := by
  unfold State.settled State.awake; simp only [incomplete, complete]; decide +kernel

/-- A telegram of six changes, a health block and an echo. -/
def fullTelegram : HeadTelegram :=
  { station := 8, sequence := 15, restart := true, changeCount := 255, phase := .both
    changes := [.aOnly, .both, .bOnly, .free, .bOnly, .both]
    health := some { levelA := 15, levelB := 1, supplyAlarm := true, temperatureAlarm := true
                     identity := 0x3A71C0 }
    echo := some { code := .healthRequest, tag := 15 } }

/-- Each way to be FORMAT, stations 0 and 9, and telegrams laid out at stations 1 and 8. -/
theorem test_meets_the_form_of_a_telegram :
    1 ≤ fullTelegram.station.toNat ∧ fullTelegram.station.toNat ≤ 8 ∧
      fullTelegram.changes.length ≤ 6 ∧ fullTelegram.changes.getLast? = some fullTelegram.phase ∧
      fullTelegram.body =
        [0xFE, 255, 0xC6, 1, 3, 2, 0, 2, 3, 0xF1, 0x03, 0x3A, 0x71, 0xC0, 0x8F] ∧
      heartbeat.body = [0x50, 40, 0] ∧ (0x02 : Octet) ≠ 0x01 ∧ 8 < (9 : Octet).toNat ∧
      ([0x50, 40] : List Octet).length < 3 ∧
      (0x51 : Octet).getLsbD 0 = true ∧ (0x08 : Octet).extractLsb' 3 3 ≠ 0 ∧
      ((0x07 : Octet).extractLsb' 0 3).toNat = 7 ∧
      ([1] : List Octet).length ≠ ((0x00 : Octet).extractLsb' 0 3).toNat ∧
      ([0x05] : List Octet)[0]? = some 0x05 ∧ (0x05 : Octet).extractLsb' 2 6 ≠ 0 ∧
      (0x01 : Octet).extractLsb' 0 2 ≠ (0xC1 : Octet).extractLsb' 6 2 ∧
      ([0, 4, 0, 0, 0] : List Octet)[1]? = some 4 ∧ (4 : Octet).extractLsb' 2 6 ≠ 0 ∧
      ([0x10] : List Octet)[0]? = some 0x10 ∧ (0x10 : Octet).extractLsb' 4 3 ≠ 0 := by
  decide +kernel

/-- A telegram of station 0, one of station 8 with no head, and a repeat of head 0's sequence 4 for an
IN_SERVICE and a FAILED head. -/
theorem test_meets_MalformedStrayAndRepeatedTelegrams :
    yard.settled ∧ (yard.link 0).listening .direct .wait ∧
      parseHeadStatus 0 0x01 [0x50, 40, 0] = none ∧ (yard.link 0).run + 1 < yard.threshold 0 ∧
      parseHeadStatus 8 0x01 [0x50, 40, 0] ≠ none ∧ yard.activeTable.stationMap 0 8 = none ∧
      yard.activeTable.stationMap 0 1 = some 0 ∧
      parseHeadStatus 1 0x01 [0x40, 40, 0] = some { heartbeat with sequence := 4 } ∧
      (yard.head 0).state ≠ .absent ∧ (yard.head 0).baseline = some ⟨4, 40⟩ ∧
      ((yardHead 0 { serving with state := .failed }).head 0).state = .failed := by
  unfold State.settled State.awake LinkRec.listening; decide +kernel

/-- Head 0 of link 0 is heard at station 1, and head 6, which mirrors, at station 3 of link 1. -/
theorem test_meets_hears :
    yard.hears 0 0 1 .direct .wait ∧ yard.hears 1 6 3 .inverted .hunt ∧
      (yard.headCfg 6).mirror = true :=
  ⟨⟨by unfold State.settled State.awake; decide +kernel,
      by unfold LinkRec.listening; decide +kernel, by decide +kernel⟩,
    ⟨by unfold State.settled State.awake; decide +kernel,
      by unfold LinkRec.listening; decide +kernel, by decide +kernel⟩,
    by decide +kernel⟩

/-- A health block of head 0, whose level floor is 5 and which is in learning. -/
def block (level : BitVec 4) (supply : Bool) : Health :=
  { levelA := level, levelB := 15, supplyAlarm := supply, temperatureAlarm := true
    identity := 0x3A71C0 }

/-- The yard with head 0 checked for an identity. -/
def checkedYard (identity : Identity) : State :=
  { yard with
    tables := { yard.tables with
      active := some ⟨{ throat with
        heads := throat.heads.set 0 { throatHead 0 1 3 false with expected := identity } }, 7⟩ } }

/-- The cases of a telegram of an IN_SERVICE or FAILED head: in order, a repeat, gaps of 1 and 14 with no
change and with 255 changes unseen, levels at and below the floor, alarms, and identities. -/
theorem test_meets_HeartbeatInOrderIsTaken :
    yard.hears 0 0 1 .direct .wait ∧
      parseHeadStatus 1 0x01 [0x50, 40, 0] = some heartbeat ∧ (yard.head 0).state = .inService ∧
      (yard.head 0).baseline = some ⟨4, 40⟩ ∧ heartbeat.sequence = (4 : BitVec 4) + 1 ∧
      (yard.decoder 0).phase = heartbeat.phase ∧
      (6 : BitVec 4) - 4 - 1 = 1 ∧ (3 : BitVec 4) - 4 - 1 = 14 ∧
      (40 : BitVec 8) - 40 - BitVec.ofNat 8 0 = 0 ∧ (39 : BitVec 8) - 40 - BitVec.ofNat 8 0 ≠ 0 ∧
      (match yard.toPart.deliver 0 [.aOnly] with
        | (q, failed) => (q.decoder 0).phase = .aOnly ∧ failed = false) ∧
      yard.toPart.levelLow 0 (block 4 false) ∧ ¬ yard.toPart.levelLow 0 (block 5 true) ∧
      (block 5 true).supplyAlarm = true ∧ (block 5 false).supplyAlarm = false ∧
      (yard.headCfg 0).expected = 0 ∧
      ((checkedYard 0x3A71C0).headCfg 0).expected = (block 5 false).identity ∧
      ((checkedYard 1).headCfg 0).expected ≠ 0 ∧
      ((checkedYard 1).headCfg 0).expected ≠ (block 5 false).identity := by
  refine ⟨test_meets_hears.1, ?_⟩
  unfold Part.levelLow; decide +kernel

/-- An echo of head 0 that matches the command awaiting it, and ones that do not. -/
theorem test_meets_an_echo :
    (relayOf .awaitingEcho).stage = .awaitingEcho ∧ (relayOf .awaitingEcho).station = heartbeat.station ∧
      (relayOf .awaitingEcho).code = (⟨.restart, 6⟩ : Echo).code ∧
      (relayOf .awaitingEcho).tag = (⟨.restart, 6⟩ : Echo).tag ∧
      (relayOf .awaitingEcho).tag ≠ (⟨.restart, 7⟩ : Echo).tag ∧
      (relayOf .waiting).stage ≠ .awaitingEcho := by decide

/-- A head ABSENT, and one ACQUIRING at one and at its acquire count of 4, learned or not. -/
theorem test_meets_AcquisitionBegins :
    let s := yardHead 0 HeadRec.reset
    let acquiring (run : Nat) : HeadRec := { serving with state := .acquiring, run := run }
    s.hears 0 0 1 .direct .wait ∧
      parseHeadStatus 1 0x01 [0x50, 40, 0] = some heartbeat ∧ (s.head 0).state = .absent ∧
      2 ≤ (s.headCfg 0).acquireCount.toNat ∧
      ((yardHead 0 (acquiring 1)).head 0).state = .acquiring ∧
      ((yardHead 0 (acquiring 1)).head 0).baseline = some ⟨4, 40⟩ ∧
      (yard.headCfg 0).acquireCount.toNat ≤ ((yardHead 0 (acquiring 4)).head 0).run ∧
      ((yardHead 0 (acquiring 3)).head 0).run < (yard.headCfg 0).acquireCount.toNat ∧
      (yard.headCfg 0).expected = 0 ∧ ((checkedYard 1).headCfg 0).expected ≠ 0 ∧
      (acquiring 4).identityConfirmed = false :=
  ⟨⟨by unfold State.settled State.awake; decide +kernel,
      by unfold LinkRec.listening; decide +kernel, by decide +kernel⟩,
    by decide +kernel⟩

/-- RUNNING and not, at a head that bounds two sections. -/
theorem test_meets_CrossingIsCounted :
    let s := yardDecoder 1 (passing .bOnly)
    s.hears 0 1 2 .direct .wait ∧
      parseHeadStatus 2 0x01 [0x50, 41, 0x01, 0] =
        some { heartbeat with station := 2, changeCount := 41, changes := [.free] } ∧
      (s.head 1).state = .inService ∧ (s.head 1).baseline = some ⟨4, 40⟩ ∧
      (s.decoder 1).phase = .bOnly ∧ (s.decoder 1).side = .a ∧ s.evaluator = .running ∧
      (s.sectionCfg 0).inwardAt 1 = some 2 ∧ (s.sectionCfg 1).inwardAt 1 = some 1 ∧
      (s.sectionCfg 3).inwardAt 1 = none :=
  ⟨⟨by unfold State.settled State.awake; decide +kernel,
      by unfold LinkRec.listening; decide +kernel, by decide +kernel⟩,
    by decide +kernel⟩

/-- A phase error at the second entry of a list, of an IN_SERVICE head. -/
theorem test_meets_EntriesThatMoveTheWheelOrAreErrors :
    let q := (yardDecoder 0 (passing .aOnly)).toPart
    (DecoderRec.reset.phase = .free ∧ (passing .aOnly).phase = .aOnly ∧
      (passing .both).phase = .both ∧ (passing .bOnly).phase = .bOnly) ∧
      ({ heartbeat with changes := [.aOnly, .bOnly, .free] } : HeadTelegram).changes =
        [.aOnly] ++ .bOnly :: [.free] ∧
      yard.toPart.deliver 0 [.aOnly] = (q, false) ∧ (q.head 0).state = .inService ∧
      (q.decoder 0).judge (q.headCfg 0).rockLimit.toNat .bOnly = (q.decoder 0, .phaseError) := by
  decide +kernel

/-- Rock counts one below the raised limit of 3, and at it. -/
theorem test_meets_ReturnsToFree :
    ((yardDecoder 0 (passing .bOnly)).decoder 0).phase = .bOnly ∧
      ((yardDecoder 0 { passing .aOnly with side := .b }).decoder 0).side = .b ∧
      ((yardDecoder 0 (passing .aOnly)).decoder 0).phase = .aOnly ∧
      ((yardDecoder 0 (passing .aOnly)).decoder 0).side = .a ∧
      ((yardDecoder 0 { passing .aOnly with rock := 1 }).decoder 0).rock + 1 <
        (yard.headCfg 0).rockLimit.toNat ∧
      (yard.headCfg 0).rockLimit.toNat ≤
        ((yardDecoder 0 { passing .aOnly with rock := 2 }).decoder 0).rock + 1 := by
  decide +kernel

/-- A repeat, and four telegrams that are none: a restart marker, an ABSENT head, no baseline, and another
sequence. -/
theorem test_meets_BaselineFollowsEveryTelegramButARepeat :
    (yard.head 0).state ≠ .absent ∧ (yard.head 0).baseline = some ⟨4, 40⟩ ∧
      heartbeat.restart = false ∧ ({ heartbeat with sequence := 4 } : HeadTelegram).sequence = 4 ∧
      ({ heartbeat with restart := true } : HeadTelegram).restart = true ∧
      (yard.head 6).state = .absent ∧ (yard.head 6).baseline = none ∧ heartbeat.sequence ≠ 4 := by
  decide +kernel

theorem test_meets_SilenceExpires :
    yard.awake ∧ (yard.head 31).silence = .stopped ∧
      ((yardHead 0 { serving with state := .acquiring }).head 0).state = .acquiring ∧
      (yard.head 0).silence ≠ .stopped ∧ (yard.head 0).state = .inService := by
  unfold State.awake; decide +kernel

/-- Each of the states, with counts at 0, 1 and the limit of 400, and a confirm time of 0 and not. -/
theorem test_meets_WheelsMoveSections :
    (yard.sec 0).state = .clear ∧
      (let s := yardAt 0 { SectionRec.reset with state := .occupied, count := 399 }
       (s.sec 0).state = .occupied ∧ (s.sec 0).count < (s.sectionCfg 0).countLimit.toNat ∧
         1 < (s.sec 0).count) ∧
      (let s := yardAt 0 { SectionRec.reset with state := .occupied, count := 400 }
       (s.sec 0).count = (s.sectionCfg 0).countLimit.toNat) ∧
      (let s := yardAt 0 { SectionRec.reset with state := .occupied, count := 1 }
       (s.sec 0).count = 1 ∧ (s.sec 0).sweep = false ∧
         0 < (s.sectionCfg 0).confirmTime.toNat) ∧
      (let s := yardAt 23 { SectionRec.reset with state := .occupied, count := 1 }
       (s.sec 23).count = 1 ∧ (s.sec 23).sweep = false ∧ (s.sectionCfg 23).confirmTime = 0) ∧
      ((yardAt 0 { SectionRec.reset with state := .clearing }).sec 0).state = .clearing ∧
      ((yardAt 0 { SectionRec.reset with state := .disturbed }).sec 0).state = .disturbed := by
  decide +kernel

/-- Counts 0, 1, 399 and the limit of 400 in RESTORING. -/
theorem test_meets_WheelsMoveARestoringSection :
    let s := fun n => yardAt 0 { SectionRec.reset with state := .restoring, count := n }
    ((s 0).sec 0).state = .restoring ∧ ((s 0).sec 0).count = 0 ∧ ((s 1).sec 0).count = 1 ∧
      0 < ((s 1).sectionCfg 0).confirmTime.toNat ∧ 1 < ((s 2).sec 0).count ∧
      (yard.sectionCfg 23).confirmTime = 0 ∧
      ((s 399).sec 0).count < ((s 399).sectionCfg 0).countLimit.toNat ∧
      ((s 400).sec 0).count = ((s 400).sectionCfg 0).countLimit.toNat := by
  decide +kernel

theorem test_meets_ConfirmExpires :
    let s := yardAt 0 { SectionRec.reset with state := .clearing, confirm := .running 1 }
    s.awake ∧ (s.sec 1).confirm = .stopped ∧ (s.sec 0).confirm ≠ .stopped ∧
      (s.sec 0).state = .clearing := by
  unfold State.awake; decide +kernel

/-- 15 and 16 notices, a queued section, and a line that carries the flag and not. -/
theorem test_meets_MarksNoticesAndTheReportCycle :
    (23 : SectionId) ∈ ({ ReportUnit.reset with queue := [23] } : ReportUnit).queue ∧
      (23 : SectionId) ∉ ReportUnit.reset.queue ∧
      (List.replicate 15 (Notice.gapBridged 0 1)).length < 16 ∧
      16 ≤ (List.replicate 16 (Notice.gapBridged 0 1)).length ∧
      flagged.notedOverrun = true ∧ ReportUnit.reset.transmitter = none ∧
      yard.awake ∧ State.reset.report.cycleTimer = .stopped ∧
      yard.report.cycleTimer ≠ .stopped := by
  unfold State.awake; decide +kernel

/-- A command that may start; a busy transmitter, a receiver in FRAME and a queue head already sent; the
last octet of a head's command, of a broadcast and of one that was cancelled. -/
theorem test_meets_RelayTelegramsGoOut :
    yard.awake ∧ (yard.link 0).transmitter = none ∧ (yard.link 0).mode = .locked .direct .wait ∧
      (∀ octets, Rx.wait ≠ .frame octets) ∧ (relayOf .waiting).stage = .waiting ∧
      (∃ s : State, s.awake ∧ (s.link 0).queue = [relayOf .waiting] ∧
        (s.link 0).mode = .locked .direct .wait) ∧
      (∃ s : State, s.awake ∧ (s.link 0).transmitter = some [0xA7] ∧
        (s.link 0).queue = [relayOf .transmitting] ∧ (relayOf .transmitting).target = .head 0) ∧
      (∃ s : State, s.awake ∧ (s.link 0).transmitter = some [0xA7] ∧
        (s.link 0).queue = [{ relayOf .transmitting with target := .broadcast }]) ∧
      (∃ s : State, s.awake ∧ (s.link 0).transmitter = some [0xA7] ∧ (s.link 0).queue = []) ∧
      (∃ s : State, s.awake ∧ (s.link 0).mode = .locked .direct (.frame [])) := by
  unfold State.awake
  refine ⟨by decide, by decide +kernel, by decide +kernel, nofun, by decide, ?_, ?_, ?_, ?_, ?_⟩
  · exact ⟨yardLink 0 { lockedRun 0 with queue := [relayOf .waiting] }, by decide +kernel⟩
  · exact ⟨yardLink 0 { lockedRun 0 with
      queue := [relayOf .transmitting], transmitter := some [0xA7] }, by decide +kernel⟩
  · exact ⟨yardLink 0 { lockedRun 0 with
      queue := [{ relayOf .transmitting with target := .broadcast }]
      transmitter := some [0xA7] }, by decide +kernel⟩
  · exact ⟨yardLink 0 { lockedRun 0 with transmitter := some [0xA7] }, by decide +kernel⟩
  · exact ⟨yardLink 0 { lockedRun 0 with mode := .locked .direct (.frame []) }, by decide +kernel⟩

theorem test_meets_RelayTimerExpires :
    let s := yardLink 0 { lockedRun 0 with
      queue := [relayOf .awaitingEcho, relayOf .waiting], timer := .running 1 }
    s.awake ∧ (s.link 1).timer = .stopped ∧ (s.link 0).timer ≠ .stopped ∧
      (s.link 0).queue = relayOf .awaitingEcho :: [relayOf .waiting] ∧
      (∀ l, ∀ c ∈ (s.link l).queue.tail, c.stage = .waiting) ∧
      (∀ l, (s.link l).timer ≠ .stopped ↔ l = 0) := by
  unfold State.awake; decide +kernel

/-- A reply in the buffer. -/
def someReply : Reply := { tag := 1, kind := 0x10, outcome := .done, items := [] }

/-- Two replies wait, and bodies of 1 and 34 octets. -/
theorem test_meets_RequestsAreDiscardedWhileTwoRepliesWait :
    yard.awake ∧
      2 ≤ ({ yard.count with replies := [someReply, someReply] } : CountLine).replies.length ∧
      1 ≤ ([7] : List Octet).length ∧ (List.replicate 34 (7 : Octet)).length ≤ 34 := by
  unfold State.awake; decide +kernel

/-- One reply waits; field counts of each group one off; codes 0 and 3 that name nothing. -/
theorem test_meets_MalformedRequestsAreRefusedFormat :
    ({ yard with count := { yard.count with replies := [someReply] } } : State).hasRoom ∧
      ([9] : List Octet).length ≠ 0 ∧ ([] : List Octet).length ≠ 1 ∧
      ([9, 9, 9] : List Octet).length ≠ 2 ∧ ([9, 9] : List Octet).length ≠ 3 ∧
      ([9] : List Octet).length < 2 ∧ (List.replicate 33 (9 : Octet)).length ≤ 33 ∧
      (0 : Octet) ≠ 1 ∧ (0 : Octet) ≠ 2 ∧ (3 : Octet) ≠ 1 ∧ (3 : Octet) ≠ 2 ∧ (4 : Octet) ≠ 3 ∧
      (∀ kc ∈ requestCommands, kc.1 ≠ 0x24) ∧ (∀ kc ∈ requestCommands, kc.1 ≠ 0x0F) := by
  unfold State.hasRoom State.awake; decide +kernel

/-- Bodies of 0, 1, 34 and 35 octets, the part's own address 1 and another. -/
theorem test_meets_TelegramsAddressedElsewhere :
    yard.awake ∧ 1 ≤ ([7] : List Octet).length ∧ (List.replicate 34 (7 : Octet)).length ≤ 34 ∧
      (2 : Octet) ≠ yard.pins.address.setWidth 8 ∧ (1 : Octet) = yard.pins.address.setWidth 8 ∧
      ([] : List Octet).length = 0 ∧ 34 < (List.replicate 35 (7 : Octet)).length ∧
      (∃ kc ∈ requestCommands, kc.1 = 0x10) := by
  refine ⟨by unfold State.awake; decide, by decide, by decide, by decide, by decide, by decide,
    by decide, (0x10, .statusQuery), List.mem_cons_self, rfl⟩

/-- Numbers at the ends of their ranges, in a part with room for a reply. -/
theorem test_meets_Queries :
    yard.hasRoom ∧ 4 ≤ (4 : Octet).toNat ∧ 24 ≤ (24 : Octet).toNat ∧ 32 ≤ (32 : Octet).toNat := by
  unfold State.hasRoom State.awake; decide +kernel

theorem test_meets_StartAndHalt :
    (yardIn .halted).hasRoom ∧ (yardIn .halted).evaluator = .halted ∧ yard.evaluator ≠ .halted ∧
      (yardIn .halted).evaluator ≠ .running ∧ yard.evaluator = .running := by
  unfold State.hasRoom State.awake; decide +kernel

/-- Every check fails somewhere: halted, section 24, section 23 absent, CLEAR, a stale number, head 5
FAILED, direct reset not permitted; and every check passes, in both modes. -/
theorem test_meets_SectionResetIsJudged :
    let disturbed : SectionRec := { SectionRec.reset with state := .disturbed, number := 8 }
    yard.hasRoom ∧ (yardIn .halted).evaluator ≠ .running ∧ yard.evaluator = .running ∧
      24 ≤ (24 : Octet).toNat ∧ (23 : Octet).toNat = (23 : SectionId).val ∧
      (yard.sectionCfg 23).present = false ∧ (yard.sectionCfg 3).present = true ∧
      (yard.sec 3).state ≠ .disturbed ∧ ((yardAt 3 disturbed).sec 3).state = .disturbed ∧
      (7 : Octet) ≠ ((yardAt 3 disturbed).sec 3).number ∧
      (8 : Octet) = ((yardAt 3 disturbed).sec 3).number ∧
      (yard.sectionCfg 3).names 5 = true ∧
      ((yardHead 5 { serving with state := .failed }).head 5).state ≠ .inService ∧
      (∀ g : HeadId, g < 5 → (yard.sectionCfg 3).names g = true → (yard.head g).state = .inService) ∧
      (∀ h : HeadId, (yard.sectionCfg 3).names h = true → (yard.head h).state = .inService) ∧
      (yard.sectionCfg 3).directReset = true ∧ (yard.sectionCfg 0).directReset = false := by
  unfold State.hasRoom State.awake; decide +kernel

theorem test_meets_HeadReleaseAndAdopt :
    yard.hasRoom ∧ 32 ≤ (32 : Octet).toNat ∧ (31 : Octet).toNat = (31 : HeadId).val ∧
      (yard.headCfg 31).present = false ∧ (yard.headCfg 0).present = true ∧
      (yard.head 0).state ≠ .failed ∧
      ((yardHead 0 { serving with state := .failed }).head 0).state = .failed ∧
      (yard.head 0).learned = none ∧
      ((yardHead 0 { serving with learned := some 0x3A71C0 }).head 0).learned = some 0x3A71C0 := by
  unfold State.hasRoom State.awake; decide +kernel

/-- Heads 31 and 32, links 3 and 4; an OFF link; a RESTART that would reach head 0 in service; queues of
1 and 2 commands. -/
theorem test_meets_HeadRelayIsJudged :
    yard.hasRoom ∧ 32 ≤ (32 : Octet).toNat ∧ (31 : Octet).toNat = (31 : HeadId).val ∧
      (yard.headCfg 31).present = false ∧ 4 ≤ (4 : Octet).toNat ∧
      (3 : Octet).toNat = (3 : LinkId).val ∧ yard.activeTable.global.enabled[(3 : LinkId)] = false ∧
      yard.activeTable.global.enabled[(1 : LinkId)] = true ∧ (yard.headCfg 0).present = true ∧
      (yard.headCfg 0).link.toNat = (0 : LinkId).val ∧ (yard.headCfg 0).station = 1 ∧
      ((yardLink 0 searching).link 0).state ≠ .locked ∧ (yard.link 0).state = .locked ∧
      (yard.head 0).state = .inService ∧
      ((yardLink 0 { lockedRun 0 with queue := [relayOf .waiting] }).link 0).queue.length < 2 ∧
      2 ≤ ((yardLink 0 { lockedRun 0 with
        queue := [relayOf .waiting, relayOf .waiting] }).link 0).queue.length := by
  unfold State.hasRoom State.awake; decide +kernel

/-- A record of each kind, octets that are none, and numbers at the ends of their ranges. -/
theorem test_meets_TableWriteReplacesARecord :
    yard.hasRoom ∧ (encodeGlobal GlobalRecord.blank).length ≤ 31 ∧
      decodeGlobal [] = none ∧ decodeHead [] = none ∧ decodeSection [] = none ∧
      decodeGlobal (encodeGlobal throat.global) = some throat.global ∧
      decodeHead (encodeHead (throat.headCfg 6)) = some (throat.headCfg 6) ∧
      decodeSection (encodeSection (throat.sectionCfg 1)) = some (throat.sectionCfg 1) ∧
      (1 : Octet) ≠ 0 ∧ 32 ≤ (32 : Octet).toNat ∧ (31 : Octet).toNat = (31 : HeadId).val ∧
      24 ≤ (24 : Octet).toNat ∧ (23 : Octet).toNat = (23 : SectionId).val := by
  unfold State.hasRoom State.awake; decide +kernel

theorem test_meets_TableReadAndCopy :
    yard.hasRoom ∧ (1 : Octet) ≠ 0 ∧ 32 ≤ (32 : Octet).toNat ∧ 24 ≤ (24 : Octet).toNat ∧
      (31 : Octet).toNat = (31 : HeadId).val ∧ (23 : Octet).toNat = (23 : SectionId).val ∧
      State.reset.tables.active = none ∧ yard.tables.active = some ⟨throat, 0x1234⟩ := by
  unfold State.hasRoom State.awake; decide +kernel

/-- The throat with another global record, head 31 and section 23. -/
def spoiltThroat (g : GlobalRecord) (r : HeadRecord) (b : List BoundaryEntry) : Table :=
  { global := g, heads := throat.heads.set 31 r
    sections := throat.sections.set 23 (throatSection 400 500 true b) }

/-- The table of each failure, at the last record of its kind: each check fails where those before it
pass. -/
theorem test_meets_TableCheckJudgesStaging :
    let g := throat.global
    let r := throatHead 0 5 3 false
    let off : GlobalRecord := { g with enabled := #v[true, true, false, true] }
    yard.hasRoom ∧ yard.tables.staging.firstFailure = none ∧
      (spoiltThroat { g with reportCycle := 99 } r [⟨31, 1⟩]).firstFailure =
        some { code := .c1, kind := .global, number := 0 } ∧
      (spoiltThroat g { r with station := 9 } [⟨31, 1⟩]).firstFailure =
        some { code := .c1, kind := .head, number := 31 } ∧
      (spoiltThroat g r [⟨32, 1⟩]).firstFailure =
        some { code := .c1, kind := .sectionRecord, number := 23 } ∧
      (spoiltThroat g r []).firstFailure =
        some { code := .c2, kind := .sectionRecord, number := 23 } ∧
      (spoiltThroat g r [⟨30, 1⟩]).firstFailure =
        some { code := .c3, kind := .sectionRecord, number := 23 } ∧
      (spoiltThroat g r [⟨31, 1⟩, ⟨31, 2⟩]).firstFailure =
        some { code := .c4, kind := .sectionRecord, number := 23 } ∧
      (spoiltThroat g r [⟨0, 1⟩]).firstFailure =
        some { code := .c5, kind := .head, number := 0 } ∧
      (spoiltThroat g { r with station := 4 } [⟨31, 1⟩]).firstFailure =
        some { code := .c6, kind := .head, number := 31 } ∧
      (spoiltThroat off { r with link := 2 } [⟨31, 1⟩]).firstFailure =
        some { code := .c7, kind := .head, number := 31 } ∧
      ({ Table.blank with global := g } : Table).firstFailure =
        some { code := .c8, kind := .global, number := 0 } := by
  unfold State.hasRoom State.awake; decide +kernel

/-- EDITING; another CRC; and an activation over no table, which adds four sections. -/
theorem test_meets_TableActivateAppliesTheDelta :
    yard.hasRoom ∧ State.reset.tables.stagingState = .editing ∧
      yard.tables.stagingState = .checked 0x1234 ∧
      (0x12 : Octet) ++ (0x35 : Octet) ≠ (0x1234 : Crc) ∧
      (0x12 : Octet) ++ (0x34 : Octet) = (0x1234 : Crc) ∧
      (∀ i : SectionId, (State.reset.activeTable.sectionCfg i).present = false) ∧
      (throat.sectionCfg 3).present = true := by
  unfold State.hasRoom State.awake; decide +kernel

theorem test_meets_StoreOperationsAreAccepted :
    yard.hasRoom ∧ (yardIn .unconfigured).evaluator = .unconfigured ∧
      yard.evaluator ≠ .unconfigured ∧ (yardImage (storing .erase 0)).image.op ≠ .none ∧
      yard.image.op = .none ∧ yard.image.state ≠ .valid ∧ yard.image.state ≠ .validCommissioned ∧
      (yardImage (stored .commissioned .validCommissioned 0)).image.state = .validCommissioned ∧
      (yardImage (stored .valid .valid 0)).image.state = .valid ∧
      yard.tables.active = some ⟨throat, 0x1234⟩ ∧
      (yardImage (stored .valid .valid 0)).image.image.body = ⟨throat, 0⟩ ∧
      (0 : Crc) ≠ 0x1234 := by
  unfold State.hasRoom State.awake; decide +kernel

/-- Each operation in flight, a stored table that reads back with its CRC, and one that does not. -/
theorem test_meets_StoreOperationsEnd :
    yard.awake ∧ yard.image.op = .none ∧
      (yardImage (storing (.store throat 0x1234) 0)).image.op = .store throat 0x1234 ∧
      (yardImage (storing .commission 0x1234)).image.op = .commission ∧
      (yardImage (storing .commission 0x1234)).image.image.body = ⟨throat, 0x1234⟩ ∧
      (yardImage (storing .erase 0)).image.op = .erase ∧
      throat = (none : Option Table).getD throat ∧
      crc16 (encodeTable throat) = tableCrc throat ∧
      crc16 (encodeTable throat) ≠ tableCrc throat + 1 ∧
      yard.image.timer = .stopped ∧ (yardImage (storing .erase 0)).image.timer ≠ .stopped := by
  unfold State.awake; decide +kernel

theorem test_meets_HoldingTheLine :
    yard.hasRoom ∧ State.reset.tables.active = none ∧
      yard.tables.active = some ⟨throat, 0x1234⟩ ∧
      2000 = (⟨throat, 0x1234⟩ : ActiveTable).table.global.holdLimit.toNat ∧
      ({ yard.report with held := true } : ReportUnit).held = true ∧ yard.report.held = false ∧
      yard.report.holdTimer = .stopped ∧ flagged.notedHoldExpired = true ∧
      yard.report.transmitter = none := by
  unfold State.hasRoom State.awake; decide +kernel

/-- Each thing that may wait, a step of the yard that leaves it awake, and the word of an OCCUPIED section's
report entry with its latch set and count 8. -/
theorem test_meets_TransmitterChooses :
    (0xB008 : BitVec 16).getLsbD 15 = true ∧
      (0xB008 : BitVec 16).extractLsb' 12 3 = (codeSectionState .occupied).setWidth 3 ∧
      (0xB008 : BitVec 16).extractLsb' 0 12 = BitVec.ofNat 12 8 ∧
      (result (step yard)).map (fun t => t.toPart.inReset) = some false ∧ yard.awake ∧
      ({ yard.report with transmitter := some flagged } : ReportUnit).transmitter ≠ none ∧
      yard.report.transmitter = none ∧ yard.count.replies = [] ∧ yard.report.held = false ∧
      ({ yard.count with replies := [someReply] } : CountLine).replies = someReply :: [] ∧
      ({ yard.report with queue := [23] } : ReportUnit).queue ≠ [] ∧ yard.report.queue = [] ∧
      ({ yard.report with notices := [.gapBridged 0 1] } : ReportUnit).notices ≠ [] ∧
      yard.report.notices = [] ∧ yard.report.mirrors = [] ∧
      ({ yard.report with mirrors := [⟨3, []⟩] } : ReportUnit).mirrors = ⟨3, []⟩ :: [] := by
  unfold State.awake; decide +kernel

theorem test_meets_TransmissionEnds :
    yard.awake ∧ yard.report.transmitter = none ∧
      ({ yard.report with transmitter := some flagged } : ReportUnit).transmitter = some flagged := by
  unfold State.awake; decide +kernel

/-- Three mirrors leave room, and four do not. -/
theorem test_meets_MirrorsAreBuffered :
    (List.replicate 3 (⟨0, []⟩ : Mirror)).length < 4 ∧
      4 ≤ (List.replicate 4 (⟨0, []⟩ : Mirror)).length ∧
      ({ yard.report with mirrors := [⟨3, []⟩] } : ReportUnit).mirrors = ⟨3, []⟩ :: [] := by
  decide +kernel

/-- Boundary lists of 4 entries, and a whole table of lists no longer. -/
theorem test_meets_TableRecordsReadBackAsWritten :
    (List.replicate 4 (⟨31, 2⟩ : BoundaryEntry)).length ≤ 4 ∧
      (∀ i, (throat.sectionCfg i).boundary.length ≤ 4) ∧
      decodeGlobal [0, 100, 0, 100, 2, 0x0F, 0x11, 0x11] ≠ none ∧
      decodeGlobal [0, 100, 0, 100, 2, 0x1F, 0x11, 0x11] = none ∧
      decodeHead [3, 5, 9, 0, 0, 1, 0, 20, 2, 1, 0] ≠ none ∧
      decodeHead [3, 5, 9, 0, 0, 1, 0, 20, 2, 1] = none ∧
      decodeSection [3, 0, 16, 0, 50, 4, 0, 1, 1, 2, 2, 0, 3, 1] ≠ none ∧
      decodeSection [3, 0, 16, 0, 50, 5, 0, 1, 1, 2, 2, 0, 3, 1, 4, 1] = none := by
  decide +kernel

/-! The yard, at a step that does something, meets the premises of what every step keeps. -/

/-- The yard with a telegram in its queue. -/
def yardStep : State :=
  { yard with pending := [.headStatusTelegram 0 (statusTelegram 2 0x50 44 4 [1, 3, 2, 0])] }

theorem test_meets_StepsKeepQueuesAndDecoders :
    yardStep.toPart.QueuesBounded ∧ yardStep.toPart.SidesAgree ∧ yardStep.toPart.DecodersAtRest ∧
      (result (step yardStep)).isSome = true := by
  refine ⟨⟨by decide +kernel, by decide +kernel, by decide +kernel, by decide +kernel,
    by decide +kernel⟩, ?_, ?_, by decide +kernel⟩
  · unfold Part.SidesAgree; decide +kernel
  · unfold Part.DecodersAtRest; decide +kernel

theorem test_meets_StepsKeepTimersSound : yardStep.toPart.TimersSound := by
  refine ⟨?_, ?_, ?_, ?_⟩
  · unfold Part.SilenceTimers; decide +kernel
  · unfold Part.ConfirmTimers; decide +kernel
  · unfold Part.HoldSound; decide +kernel
  · unfold Part.StoreSound; decide +kernel

theorem test_meets_StepsKeepRelaysSound : yardStep.toPart.RelaysSound := by
  intro l
  fin_cases l <;> exact ⟨nofun, fun h => absurd rfl h, fun ⟨_, h, _⟩ => nomatch h⟩

theorem test_meets_StepsKeepHaltedSectionsDisturbed :
    yardStep.toPart.HaltedDisturbed ∧ yardStep.toPart.ConfiguredSound := by
  refine ⟨?_, by decide +kernel, by decide +kernel, by decide +kernel⟩
  unfold Part.HaltedDisturbed; decide +kernel

theorem test_meets_StepsKeepBoundariesInService : yardStep.toPart.BoundariesInService := by
  unfold Part.BoundariesInService; decide +kernel

theorem test_meets_StepsKeepHeadsOnLockedLinks : yardStep.toPart.HeadsOnLockedLinks := by
  unfold Part.HeadsOnLockedLinks; decide +kernel

/-- The premise of the invariants that rest on checked tables. -/
theorem test_meets_StepsKeepTablesSound : yardStep.toPart.TablesSound := by
  have f : throat.firstFailure = none := test_throat_passes_every_check
  refine ⟨?_, ?_, ⟨?_, ?_, ?_, ?_⟩⟩
  · intro _ _; exact f
  · intro a h; cases h; exact f
  · rintro (h | h) <;> cases h
  · rintro (h | h) <;> cases h
  · intro _ _ h; cases h
  · intro h; cases h

theorem test_meets_StepsKeepCountsSound : yardStep.toPart.CountsSound := by
  have k : ∀ i, (yardStep.sectionCfg i).present = true →
      (yardStep.sec i).state = .clear ∧ (yardStep.sec i).count = 0 ∧
        (yardStep.sec i).sweep = false := by decide +kernel
  intro i h
  have e := k i h
  unfold SectionRec.countSound
  rw [e.1]
  exact e.2

/-- A commissioned part as it starts up, with the CRC of the throat. -/
def commissionedPart (crc : Crc) : State :=
  { State.reset with
    tables :=
      { active := some ⟨throat, crc⟩, staging := throat, stagingState := .checked crc
        lastCheck := .pass crc }
    evaluator := .halted
    image := stored .commissioned .validCommissioned crc }

theorem test_crcs_of_the_commissioned_part (crc : Crc) (h : tableCrc throat = crc) :
    (commissionedPart crc).toPart.CrcsSound := by
  refine ⟨?_, ?_, ?_, ?_, ?_, ?_, ?_⟩
  · rintro _ ⟨⟩; exact h
  · rintro _ ⟨⟩; exact h
  · rintro _ _ ⟨⟩
  · rintro ⟨⟩
  · intro _; exact beq_iff_eq.2 h
  · rintro ⟨⟩
  · intro _; rfl

theorem test_meets_CommissionedImageIsChangedByEraseAlone :
    let s := commissionedPart (tableCrc throat)
    s.toPart.StoreSound ∧ s.toPart.CrcsSound ∧ s.image.state = .validCommissioned ∧
      (result (step s)).isSome = true := by
  refine ⟨?_, test_crcs_of_the_commissioned_part _ rfl, by decide +kernel, by decide +kernel⟩
  unfold Part.StoreSound; decide +kernel

/-- A step on a held line, and a HOLD that holds it. -/
theorem test_meets_HeldLineStartsOnlyReplies :
    (onHold yardStep).transmissionDue = false ∧ yard.transmissionDue = false ∧
      (result (step (onHold yardStep))).map (fun t => t.report.held) = some true ∧
      (result (step { yard with pending := [.hold [7]] })).map (fun t => t.report.held) =
        some true := by
  decide +kernel

end Sys2Proof.Tests
end

section
/-! SUPPORT. The step of an empty queue (R1, R61; log 3, 4, 5). The part's timers are named once
(`TimerId`), so that the tick and the list of expiry commands are one walk over the same names: an expiry
stops a timer that it does not own or leaves it, and so takes no expiry from the commands of the counted
part and brings none. -/

namespace Sys2Proof.Machine

/-! ## The timers of the part by name -/

/-- The timers of the part (R1). -/
inductive TimerId where
  | silence (head : HeadId)
  | confirm (sec : SectionId)
  | relay (link : LinkId)
  | holdLimit
  | reportCycle
  | store

/-- What a timer shows. -/
def Part.timer (p : Part) : TimerId → Timer
  | .silence h => (p.head h).silence
  | .confirm i => (p.sec i).confirm
  | .relay l => (p.link l).timer
  | .holdLimit => p.report.holdTimer
  | .reportCycle => p.report.cycleTimer
  | .store => p.image.timer

/-- The effect of a timer's expiry, before the end of the event. -/
def Part.expire (p : Part) : TimerId → Part
  | .silence h => p.silenceExpiry h
  | .confirm i => p.confirmExpiry i
  | .relay l => p.relayExpiry l
  | .holdLimit => p.holdExpiry
  | .reportCycle => p.cycleExpiry
  | .store => p.storeExpiry

/-- The expiry command of a timer. -/
def TimerId.expiryCommand : TimerId → Instr
  | .silence h => .silenceExpiry h
  | .confirm i => .confirmExpiry i
  | .relay l => .relayTimerExpiry l
  | .holdLimit => .holdLimitExpiry
  | .reportCycle => .reportCycleExpiry
  | .store => .storeTimerExpiry

/-- The order in which expiries of one millisecond are taken (log 4). -/
def expiryOrder : List TimerId :=
  (List.finRange 32).map .silence ++ (List.finRange 24).map .confirm ++
    (List.finRange 4).map .relay ++ [.holdLimit, .reportCycle, .store]

/-- A timer's expiry is taken where it is due. -/
def Part.takeExpiry (p : Part) (t : TimerId) : Part :=
  p.takeDue (p.timer t).isDue fun q => q.expire t

theorem exec_expiryCommand (t : TimerId) (s : State) :
    exec t.expiryCommand s = s.next (s.toPart.unlessReset fun p => p.expire t) := by
  cases t <;> rfl

/-- The tick is one walk over the timers in their order. -/
theorem Part.tick_eq_foldl (p : Part) : p.tick = expiryOrder.foldl Part.takeExpiry p.countDown := by
  have silences (q : Part) :
      ((List.finRange 32).map .silence).foldl Part.takeExpiry q = q.dueSilence := List.foldl_map
  have confirms (q : Part) :
      ((List.finRange 24).map .confirm).foldl Part.takeExpiry q = q.dueConfirm := List.foldl_map
  have relays (q : Part) :
      ((List.finRange 4).map .relay).foldl Part.takeExpiry q = q.dueRelay := List.foldl_map
  have singles (q : Part) :
      [.holdLimit, .reportCycle, .store].foldl Part.takeExpiry q = q.dueSingle := rfl
  simp only [expiryOrder, List.foldl_append, silences, confirms, relays, singles, Part.tick]

/-- The expiry commands are those of the timers that show 0, in the same order. -/
theorem Part.expiries_eq (p : Part) :
    p.expiries =
      (expiryOrder.filter fun t => decide (p.timer t = .running 0)).map TimerId.expiryCommand := by
  have alone (t : TimerId) :
      ([t].filter fun t => decide (p.timer t = .running 0)).map TimerId.expiryCommand =
        if p.timer t = .running 0 then [t.expiryCommand] else [] := by
    by_cases h : p.timer t = .running 0 <;> simp [h]
  have walk : expiryOrder = (List.finRange 32).map .silence ++ (List.finRange 24).map .confirm ++
      (List.finRange 4).map .relay ++ [.holdLimit] ++ [.reportCycle] ++ [.store] := by
    simp [expiryOrder]
  simp only [walk, List.filter_append, List.map_append, List.filter_map, List.map_map, alone]
  rfl

theorem expiryOrder_nodup : expiryOrder.Nodup := by
  have names {n : Nat} (f : Fin n → TimerId) (inj : f.Injective) :
      ((List.finRange n).map f).Nodup := (List.nodup_finRange n).map inj
  have silences := names .silence fun _ _ => TimerId.silence.inj
  have confirms := names .confirm fun _ _ => TimerId.confirm.inj
  have relays := names .relay fun _ _ => TimerId.relay.inj
  refine ((silences.append confirms ?_).append relays ?_).append (by simp) ?_ <;>
    simp only [List.disjoint_left, List.mem_append, List.mem_map]
  · rintro _ ⟨_, -, rfl⟩
    simp
  · rintro _ (⟨_, -, rfl⟩ | ⟨_, -, rfl⟩) <;> simp
  · rintro _ ((⟨_, -, rfl⟩ | ⟨_, -, rfl⟩) | ⟨_, -, rfl⟩) <;> simp

/-! ## An expiry against the timers -/

/-- A timer that does not run has no expiry (R1). -/
theorem Part.expire_of_stopped {p : Part} {t : TimerId} (h : p.timer t = .stopped) :
    p.expire t = p := by
  cases t <;> simp only [Part.timer] at h
  case silence => simp [Part.expire, Part.silenceExpiry, h]
  case confirm => simp [Part.expire, Part.confirmExpiry, h]
  case relay => simp [Part.expire, Part.relayExpiry, h]
  case holdLimit => simp [Part.expire, Part.holdExpiry, h]
  case reportCycle => simp [Part.expire, Part.cycleExpiry, h]
  case store => simp [Part.expire, Part.storeExpiry, h]

@[simp] theorem Part.expire_inReset (p : Part) (t : TimerId) :
    (p.expire t).inReset = p.inReset := by
  have pins : (p.expire t).pins = p.pins := by cases t <;> simp [Part.expire]
  simp only [Part.inReset, pins]

/-- The report cycle leaves the hold-limit timer as it is. -/
theorem Part.cycleExpiry_holdTimer (p : Part) :
    p.cycleExpiry.report.holdTimer = p.report.holdTimer := by
  unfold Part.cycleExpiry
  split
  · rfl
  · exact foldl_keeps (fun q : Part => q.report.holdTimer) _ (fun q i => by simp) _ p

theorem Part.storeExpiry_reportTimers (p : Part) : p.SameReportTimers p.storeExpiry := by
  unfold Part.SameReportTimers Part.storeExpiry Part.finishStore
  (repeat' split) <;> simp

/-- A timer is as it was, or has been stopped. -/
def Timer.KeptOrStopped (old new : Timer) : Prop := new = old ∨ new = .stopped

theorem Timer.KeptOrStopped.trans {a b c : Timer} (ab : a.KeptOrStopped b)
    (bc : b.KeptOrStopped c) : a.KeptOrStopped c := by
  rcases bc with rfl | stopped
  · exact ab
  · exact .inr stopped

/-- An expiry leaves every timer but its own as it is, or stops it. -/
theorem Part.expire_timer_ne (p : Part) {t u : TimerId} (ne : u ≠ t) :
    (p.timer u).KeptOrStopped ((p.expire t).timer u) := by
  cases t with
  | silence h =>
    have same := p.silenceExpiry_reportTimers h
    cases u with
    | silence k =>
      have n : k ≠ h := fun e => ne (e ▸ rfl)
      exact .inl (by simp [Part.timer, Part.expire, p.silenceExpiry_head_ne n])
    | confirm i => exact p.silenceExpiry_confirm h i
    | relay l => exact .inl (by simp [Part.timer, Part.expire])
    | holdLimit => exact .inl same.1
    | reportCycle => exact .inl same.2
    | store => exact .inl (by simp [Part.timer, Part.expire])
  | confirm i =>
    have same := p.confirmExpiry_reportTimers i
    cases u with
    | confirm j =>
      have n : j ≠ i := fun e => ne (e ▸ rfl)
      exact .inl (by simp [Part.timer, Part.expire, p.confirmExpiry_sec_ne n])
    | holdLimit => exact .inl same.1
    | reportCycle => exact .inl same.2
    | silence | relay | store => exact .inl (by simp [Part.timer, Part.expire])
  | relay l =>
    have same := p.relayExpiry_reportTimers l
    cases u with
    | relay m =>
      have n : m ≠ l := fun e => ne (e ▸ rfl)
      exact .inl (by simp [Part.timer, Part.expire, p.relayExpiry_link_ne n])
    | holdLimit => exact .inl same.1
    | reportCycle => exact .inl same.2
    | silence | confirm | store => exact .inl (by simp [Part.timer, Part.expire])
  | holdLimit =>
    cases u with
    | holdLimit => exact absurd rfl ne
    | reportCycle => exact .inl p.holdExpiry_cycleTimer
    | silence | confirm | relay | store => exact .inl (by simp [Part.timer, Part.expire])
  | reportCycle =>
    cases u with
    | reportCycle => exact absurd rfl ne
    | holdLimit => exact .inl p.cycleExpiry_holdTimer
    | silence | confirm | relay | store =>
      exact .inl (by simp [Part.timer, Part.expire, Part.head, Part.sec, Part.link])
  | store =>
    have same := p.storeExpiry_reportTimers
    cases u with
    | store => exact absurd rfl ne
    | holdLimit => exact .inl same.1
    | reportCycle => exact .inl same.2
    | silence | confirm | relay => exact .inl (by simp [Part.timer, Part.expire])

@[simp] theorem Part.afterEvent_inReset (p : Part) : p.afterEvent.inReset = p.inReset := by
  simp [Part.inReset]

/-- The end of an event moves no timer. -/
@[simp] theorem Part.afterEvent_timer (p : Part) (t : TimerId) :
    p.afterEvent.timer t = p.timer t := by
  cases t with
  | confirm i => exact p.afterEvent_confirm i
  | holdLimit => exact p.afterEvent_reportTimers.1
  | reportCycle => exact p.afterEvent_reportTimers.2
  | silence | relay | store => simp [Part.timer]

/-! ## The walk over the timers -/

/-- The part is awake and has nothing that may start: what `State.settled` says of a part. -/
def Part.Quiet (p : Part) : Prop := p.inReset = false ∧ p.transmissionDue = false

theorem State.settled_iff_quiet (s : State) : s.settled ↔ s.toPart.Quiet := Iff.rfl

theorem Part.Quiet.afterEvent_eq {p : Part} (quiet : p.Quiet) : p.afterEvent = p :=
  Part.afterEvent_of_notDue quiet.2

/-- An expiry taken whole leaves the part quiet. -/
theorem Part.Quiet.expire {p : Part} (quiet : p.Quiet) (t : TimerId) :
    (p.expire t).afterEvent.Quiet := by
  obtain ⟨awake, -⟩ := quiet
  exact ⟨by simpa using awake, Part.transmissionDue_afterEvent (by simpa using awake)⟩

theorem Part.takeExpiry_of_due {p : Part} {t : TimerId} (h : p.timer t = .running 0) :
    p.takeExpiry t = (p.expire t).afterEvent := by
  simp [Part.takeExpiry, Part.takeDue_eq, (Timer.isDue_iff _).2 h]

theorem Part.takeExpiry_of_notDue {p : Part} {t : TimerId} (h : p.timer t ≠ .running 0) :
    p.takeExpiry t = p := by
  simp [Part.takeExpiry, Part.takeDue_eq, Timer.isDue_iff, h]

theorem Part.Quiet.takeExpiry {p : Part} (quiet : p.Quiet) (t : TimerId) :
    (p.takeExpiry t).Quiet := by
  by_cases due : p.timer t = .running 0
  · rw [Part.takeExpiry_of_due due]
    exact quiet.expire t
  · rwa [Part.takeExpiry_of_notDue due]

/-- An expiry that is taken where it is due stops other timers at most. -/
theorem Part.takeExpiry_timer_ne (p : Part) {t u : TimerId} (ne : u ≠ t) :
    (p.timer u).KeptOrStopped ((p.takeExpiry t).timer u) := by
  by_cases due : p.timer t = .running 0
  · rw [Part.takeExpiry_of_due due, Part.afterEvent_timer]
    exact p.expire_timer_ne ne
  · rw [Part.takeExpiry_of_notDue due]
    exact .inl rfl

/-- Where a timer that showed 0 still does or has been stopped, its expiry command does what the tick
does: over a stopped timer both do nothing. -/
theorem exec_expiryCommand_of_ended {s : State} {t : TimerId} (quiet : s.toPart.Quiet)
    (ended : (Timer.running 0).KeptOrStopped (s.timer t)) :
    exec t.expiryCommand s = .next { s with toPart := s.takeExpiry t } := by
  have taken : (s.expire t).afterEvent = s.takeExpiry t := by
    rcases ended with due | stopped
    · rw [Part.takeExpiry_of_due due]
    · rw [Part.expire_of_stopped stopped, quiet.afterEvent_eq,
        Part.takeExpiry_of_notDue (by simp [stopped])]
  rw [exec_expiryCommand, Part.unlessReset_awake quiet.1, State.next_eq, State.afterEvent]
  simp only [taken]

/-- The walk over timers is a run of the expiry commands of those that showed 0 in an earlier part `c`,
where the timers still to come have since been stopped at most. -/
theorem State.runsTo_takeExpiries (c : Part) (ts : List TimerId) (nd : ts.Nodup) (s : State)
    (quiet : s.toPart.Quiet) (kept : ∀ u ∈ ts, (c.timer u).KeptOrStopped (s.timer u)) :
    s.runsTo ((ts.filter fun t => decide (c.timer t = .running 0)).map TimerId.expiryCommand)
      { s with toPart := ts.foldl Part.takeExpiry s.toPart } := by
  induction ts generalizing s with
  | nil => rfl
  | cons t ts ih =>
    obtain ⟨fresh, nd⟩ := List.nodup_cons.1 nd
    have rest := ih nd { s with toPart := s.takeExpiry t } (quiet.takeExpiry t) fun u hu =>
      (kept u (List.mem_cons_of_mem t hu)).trans
        (s.takeExpiry_timer_ne fun e => fresh (e ▸ hu))
    have head := kept t List.mem_cons_self
    by_cases due : c.timer t = .running 0
    · rw [List.filter_cons_of_pos (by simpa using due)]
      exact ⟨_, exec_expiryCommand_of_ended quiet (due ▸ head), rest⟩
    · have still : s.takeExpiry t = s.toPart := by
        apply Part.takeExpiry_of_notDue
        rcases head with e | e <;> simp [e, due]
      rw [List.filter_cons_of_neg (by simpa using due), List.foldl_cons, still]
      rwa [still] at rest

/-- A quiet part stays quiet through its tick. -/
theorem Part.Quiet.tick {p : Part} (quiet : p.Quiet) : p.tick.Quiet := by
  rw [Part.tick_eq_foldl]
  exact foldl_inv Part.Quiet _ (fun _ t q => q.takeExpiry t) _ _ quiet

/-! ## The millisecond -/

@[simp] theorem mapVector_getElem {α : Type} {n : Nat} (f : α → α) (v : Vector α n) (i : Fin n) :
    (mapVector f v)[i] = f v[i] := by
  simp [mapVector]

@[simp] theorem Part.countDown_head (p : Part) (h : HeadId) :
    p.countDown.head h = { p.head h with silence := (p.head h).silence.countDown } :=
  mapVector_getElem _ p.heads h

@[simp] theorem Part.countDown_sec (p : Part) (i : SectionId) :
    p.countDown.sec i = { p.sec i with confirm := (p.sec i).confirm.countDown } :=
  mapVector_getElem _ p.sections i

@[simp] theorem Part.countDown_link (p : Part) (l : LinkId) :
    p.countDown.link l = { p.link l with timer := (p.link l).timer.countDown } :=
  mapVector_getElem _ p.links l

/-! ## The relay telegram that may start (R61) -/

theorem LinkRec.relayReady_iff (k : LinkRec) : k.relayReady = true ↔ k.mayTransmit := by
  have listens : (k.state = .locked ∧ k.inFrame = false) ↔
      ∃ polarity rx, k.mode = .locked polarity rx ∧ ∀ octets, rx ≠ .frame octets := by
    unfold LinkRec.state LinkRec.inFrame
    cases k.mode with
    | off | search => simp
    | locked polarity rx => cases rx <;> simp
  unfold LinkRec.relayReady LinkRec.mayTransmit
  rw [← listens]
  cases k.queue <;> simp [and_assoc]

/-- The link whose relay telegram starts is the lowest-numbered that may transmit. -/
theorem Part.relayDue_eq_some {p : Part} {l : LinkId} (may : (p.link l).mayTransmit)
    (lowest : ∀ k, k < l → ¬ (p.link k).mayTransmit) : p.relayDue = some l := by
  rw [Part.relayDue, ← Fin.find?_eq_find?_finRange, Fin.find?_eq_some_iff]
  refine ⟨(LinkRec.relayReady_iff _).2 may, fun k hk => ?_⟩
  simpa [← LinkRec.relayReady_iff] using lowest k hk

theorem Part.relayDue_eq_none {p : Part} (noneMay : ∀ l, ¬ (p.link l).mayTransmit) :
    p.relayDue = none := by
  simpa [Part.relayDue, LinkRec.relayReady_iff] using noneMay

/-! ## The step of an empty queue -/

theorem step_of_empty {s : State} (empty : s.pending = []) (awake : s.awake) :
    step s = s.next s.toPart.onItsOwn := by
  unfold step
  rw [empty]
  simp only [idle, Part.unlessReset_awake awake]

theorem step_starts_relay {s : State} {l : LinkId} (empty : s.pending = []) (awake : s.awake)
    (may : (s.link l).mayTransmit) (lowest : ∀ k, k < l → ¬ (s.link k).mayTransmit) :
    step s = exec (.relayTransmissionStart l) s := by
  have start : exec (.relayTransmissionStart l) s =
      s.next (s.toPart.unlessReset fun p => p.relayStart l) := rfl
  rw [step_of_empty empty awake, start, Part.unlessReset_awake awake, Part.onItsOwn,
    Part.relayDue_eq_some may lowest]

theorem step_ticks {s : State} (empty : s.pending = []) (settled : s.settled)
    (noneMay : ∀ l, ¬ (s.link l).mayTransmit) : step s = .next { s with toPart := s.tick } := by
  have quiet : s.toPart.Quiet := s.settled_iff_quiet.1 settled
  rw [step_of_empty empty settled.1, Part.onItsOwn, Part.relayDue_eq_none noneMay, State.next_eq,
    State.afterEvent]
  simp only [quiet.tick.afterEvent_eq]

/-- The tick is the millisecond counted and then a run of the expiry commands of the counted part. -/
theorem State.runsTo_tick {s : State} (settled : s.settled) :
    State.runsTo { s with toPart := s.countDown } s.countDown.expiries { s with toPart := s.tick } := by
  rw [Part.expiries_eq, Part.tick_eq_foldl]
  exact State.runsTo_takeExpiries s.countDown expiryOrder expiryOrder_nodup
    { s with toPart := s.countDown } settled fun _ _ => .inl rfl

/-- Settles O2: a relay telegram that may start is the one `Part.relayDue` finds; else the state counted is
the part's `countDown`, and the tick's walk over the timers is the run of its expiry commands. -/
theorem emptyQueueLetsAMillisecondPass : Obligations.EmptyQueueLetsAMillisecondPass := by
  intro s empty awake
  refine ⟨fun l may lowest => step_starts_relay empty awake may lowest, fun noneMay notDue => ?_⟩
  exact ⟨{ s with toPart := s.countDown }, { s with toPart := s.tick },
    step_ticks empty ⟨awake, notDue⟩ noneMay, State.runsTo_tick ⟨awake, notDue⟩,
    s.countDown_head, s.countDown_sec, s.countDown_link, rfl⟩

end Sys2Proof.Machine
end

section
/-! SUPPORT. What every step keeps, packaged once: a property of the part that each kind of event keeps is
kept by every command and by every step. An event is what a command does before the end-of-event start on
the count line, which is a kind of its own (R155). -/

namespace Sys2Proof.Machine

/-! ## The owners of requests -/

/-- The owners of requests, and last the answer to a kind that has none (R143, R144). -/
def requestOwners : List (List Octet → Part → Part × Answer) :=
  [statusQueryRequest, sectionQueryRequest, startRequest, haltRequest, sectionResetRequest,
    headQueryRequest, headReleaseRequest, headAdoptRequest, linkQueryRequest, headRelayRequest,
    tableWriteRequest, tableReadRequest, tableCopyRequest, tableCheckRequest, tableActivateRequest,
    storeRequest, commissionRequest, eraseStoreRequest, holdRequest, proceedRequest, noOwner]

/-- The owner of a kind is one of the owners. -/
theorem ownerOf_mem (kind : Octet) : ownerOf kind ∈ requestOwners := by
  unfold ownerOf
  iterate 20 refine ite_mem.2 ⟨fun _ => by simp [requestOwners], fun _ => ?_⟩
  simp [requestOwners]

/-! ## The reset values read record by record -/

@[simp] theorem Part.fullReset_head (p : Part) (h : HeadId) : p.fullReset.head h = HeadRec.reset := by
  simp [Part.head, Part.fullReset, Part.resetValues]

@[simp] theorem Part.fullReset_decoder (p : Part) (h : HeadId) :
    p.fullReset.decoder h = DecoderRec.reset := by
  simp [Part.decoder, Part.fullReset, Part.resetValues]

@[simp] theorem Part.fullReset_count (p : Part) : p.fullReset.count = CountLine.reset := rfl

/-! ## The start-up sequence -/

/-- The start-up sequence touches the sections, the links, the tables, the evaluator, the report unit and the
image state alone (R163). -/
@[simp] theorem Part.startUp_keeps (p : Part) :
    p.startUp.pins = p.pins ∧ p.startUp.heads = p.heads ∧ p.startUp.decoders = p.decoders ∧
      p.startUp.count = p.count := by
  let kept (q : Part) := (q.pins, q.heads, q.decoders, q.count)
  have disturbed (is : List SectionId) (q : Part) :
      kept (is.foldl (fun q i => q.disturb i .startUp) q) = kept q :=
    foldl_keeps kept _ (fun q i => by simp [kept]) is q
  have linked (t : Table) (ls : List LinkId) (q : Part) :
      kept (ls.foldl (fun q l => if t.global.enabled[l] then q.setLink l (q.link l).toSearch else q) q) =
        kept q :=
    foldl_keeps kept _ (fun q l => by split <;> simp [kept]) ls q
  have all : kept p.startUp = kept p := by
    unfold Part.startUp
    dsimp only
    split
    · exact (linked _ _ _).trans (disturbed _ _)
    · rfl
  simpa [kept] using all

@[simp] theorem Part.startUp_reads (p : Part) :
    (∀ x, p.startUp.head x = p.head x) ∧ (∀ x, p.startUp.decoder x = p.decoder x) ∧
      p.startUp.inReset = p.inReset := by
  simp [Part.head, Part.decoder, Part.inReset]

/-! ## Events -/

/-- Each kind of event of the part, before the start on the count line that ends it, keeps a property; and
so does that start. -/
structure KeptByEvents (P : Part → Prop) : Prop where
  setPins {p : Part} (pins : Pins) : P p → P (p.setPins pins)
  fullReset {p : Part} : P p → P p.fullReset
  startUp {p : Part} : P p.fullReset → P p.fullReset.startUp
  linkOctet {p : Part} (l : LinkId) (o : Octet) : P p → P (p.linkOctet l o)
  linkCharTimeout {p : Part} (l : LinkId) : P p → P (p.linkCharTimeout l)
  linkQuiet {p : Part} (l : LinkId) : P p → P (p.linkQuiet l)
  setCountRx {p : Part} (rx : Rx) : P p → P (p.setCountRx rx)
  countBadLength {p : Part} : P p → P p.countBadLength
  countBadFrame {p : Part} (f : CountLineCounts → CountLineCounts) : P p → P (p.countBadFrame f)
  takeRequest {p : Part} (kind : Octet) (body : List Octet) :
    P p → P (p.takeRequest kind body (ownerOf kind))
  countDown {p : Part} : P p → P p.countDown
  expire {p : Part} (t : TimerId) : P p → P (p.expire t)
  relayStart {p : Part} (l : LinkId) : P p → P (p.relayStart l)
  relayEnd {p : Part} (l : LinkId) : P p → P (p.relayEnd l)
  writeCompletion {p : Part} (readBack : Option Table) : P p → P (p.writeCompletion readBack)
  endTransmission {p : Part} : P p → P p.endTransmission
  afterEvent {p : Part} : P p → P p.afterEvent

namespace KeptByEvents

variable {P : Part → Prop}

/-! ## The lines -/

theorem judgeCountTelegram (kept : KeptByEvents P) {p : Part} (address kind : Octet)
    (body : List Octet) (holds : P p) : P (p.judgeCountTelegram address kind body) := by
  unfold Part.judgeCountTelegram
  split
  · exact kept.takeRequest kind body holds
  · exact holds

theorem countOctet (kept : KeptByEvents P) {p : Part} (o : Octet) (holds : P p) :
    P (p.countOctet o) := by
  unfold Part.countOctet
  cases p.count.rx with
  | wait =>
    dsimp only
    split
    · exact kept.setCountRx _ holds
    · exact kept.countBadFrame _ holds
  | hunt =>
    dsimp only
    split
    · exact kept.setCountRx _ holds
    · exact holds
  | frame octets =>
    dsimp only
    cases judgeFrame (octets ++ [o]) with
    | more => exact kept.setCountRx _ holds
    | badLength => exact kept.countBadLength holds
    | badCrc => exact kept.countBadFrame _ holds
    | good => exact kept.judgeCountTelegram _ _ _ (kept.setCountRx _ holds)

theorem countCharTimeout (kept : KeptByEvents P) {p : Part} (holds : P p) : P p.countCharTimeout := by
  unfold Part.countCharTimeout
  cases p.count.rx with
  | frame octets => exact kept.countBadFrame _ holds
  | wait | hunt => exact holds

theorem linkCharWait (kept : KeptByEvents P) {p : Part} (l : LinkId) (holds : P p) :
    P (p.linkCharWait l) := by
  unfold Part.linkCharWait
  split
  · exact holds
  · exact kept.linkCharTimeout l holds

theorem lineOctet (kept : KeptByEvents P) {p : Part} (line : Line) (o : Octet) (holds : P p) :
    P (p.lineOctet line o) := by
  cases line with
  | headLink l => exact kept.linkOctet l o holds
  | countLine => exact kept.countOctet o holds

theorem lineOctets (kept : KeptByEvents P) {p : Part} (line : Line) (octets : List Octet)
    (holds : P p) : P (p.lineOctets line octets) :=
  Part.lineOctets_inv P line (fun _ o => kept.lineOctet line o) (fun _ => kept.afterEvent) octets holds

theorem lineCharTimeout (kept : KeptByEvents P) {p : Part} (line : Line) (holds : P p) :
    P (p.lineCharTimeout line) := by
  cases line with
  | headLink l => exact kept.linkCharWait l holds
  | countLine => exact kept.countCharTimeout holds

theorem lineQuiet (kept : KeptByEvents P) {p : Part} (line : Line) (holds : P p) :
    P (p.lineQuiet line) := by
  cases line with
  | headLink l => exact kept.linkQuiet l holds
  | countLine => exact kept.setCountRx _ (kept.countCharTimeout holds)

theorem countTelegramArrives (kept : KeptByEvents P) {p : Part} (body : List Octet) {f : Part → Part}
    (judged : ∀ {q}, P q → P (f q)) (holds : P p) : P (p.countTelegramArrives body f) := by
  unfold Part.countTelegramArrives
  split
  · exact judged (kept.setCountRx _ holds)
  · exact kept.countBadLength holds

/-! ## The pins and the time base -/

theorem leaveReset (kept : KeptByEvents P) {p : Part} (holds : P p) : P p.leaveReset := by
  unfold Part.leaveReset
  split
  · exact holds
  · exact kept.startUp (kept.fullReset holds)

theorem changeAddress (kept : KeptByEvents P) {p : Part} (address : BitVec 4) (holds : P p) :
    P (p.changeAddress address) := by
  have pinned : P (p.setPins { p.pins with address := address }) := kept.setPins _ holds
  unfold Part.changeAddress
  dsimp only
  split
  · exact kept.fullReset pinned
  · split
    · exact kept.leaveReset pinned
    · exact pinned

theorem rateChange (kept : KeptByEvents P) {p : Part} (holds : P p) : P p.rateChange :=
  kept.countCharTimeout (foldl_inv P _ (fun _ l => kept.linkCharTimeout l) _ p holds)

theorem takeExpiry (kept : KeptByEvents P) {p : Part} (t : TimerId) (holds : P p) :
    P (p.takeExpiry t) := by
  unfold Part.takeExpiry Part.takeDue
  split
  · exact kept.afterEvent (kept.expire t holds)
  · exact holds

theorem onItsOwn (kept : KeptByEvents P) {p : Part} (holds : P p) : P p.onItsOwn := by
  unfold Part.onItsOwn
  split
  · exact kept.relayStart _ holds
  · rw [Part.tick_eq_foldl]
    exact foldl_inv P _ (fun _ t => kept.takeExpiry t) _ _ (kept.countDown holds)

/-! ## Commands and steps -/

theorem unlessReset {p : Part} {f : Part → Part} (keeps : ∀ {q}, P q → P (f q)) (holds : P p) :
    P (p.unlessReset f) := by
  unfold Part.unlessReset
  split
  · exact holds
  · exact keeps holds

theorem next (kept : KeptByEvents P) {s t : State} {p : Part} (holds : P p) (ran : s.next p = .next t) :
    P t.toPart := by
  cases ran
  exact kept.afterEvent holds

/-- Every command keeps what each kind of event keeps. -/
theorem exec (kept : KeptByEvents P) {s t : State} (i : Instr) (holds : P s.toPart)
    (ran : exec i s = .next t) : P t.toPart := by
  have awake {f : Part → Part} (keeps : ∀ {q}, P q → P (f q))
      (ran : s.next (s.toPart.unlessReset f) = .next t) : P t.toPart :=
    kept.next (unlessReset keeps holds) ran
  have request (kind : Octet) (body : List Octet)
      (ran : s.next (s.toPart.unlessReset fun p => p.requestArrives kind body (ownerOf kind)) = .next t) :
      P t.toPart :=
    awake (kept.countTelegramArrives body fun {_} => kept.takeRequest kind body) ran
  cases i with
  | fullReset cause => exact kept.next (kept.fullReset (kept.setPins _ holds)) ran
  | addressStrapChange address => exact kept.next (kept.changeAddress address holds) ran
  | rateStrapChange rate =>
    refine kept.next ?_ ran
    split
    · exact holds
    · exact unlessReset kept.rateChange (kept.setPins _ holds)
  | fullResetEnd event =>
    refine kept.next ?_ ran
    split
    · exact kept.leaveReset (kept.setPins _ holds)
    · exact holds
  | syncMiss line octet => exact awake (kept.lineOctet line octet) ran
  | lengthBadFrame line octets | crcBadFrame line octets => exact awake (kept.lineOctets line octets) ran
  | headStatusTelegram l octets => exact awake (kept.lineOctets (.headLink l) octets) ran
  | charTimeout line octets =>
    exact awake (fun q => kept.lineCharTimeout line (kept.lineOctets line octets q)) ran
  | quietInterval line => exact awake (kept.lineQuiet line) ran
  | silenceExpiry h => exact awake (kept.expire (.silence h)) ran
  | confirmExpiry i => exact awake (kept.expire (.confirm i)) ran
  | relayTimerExpiry l => exact awake (kept.expire (.relay l)) ran
  | holdLimitExpiry => exact awake (kept.expire .holdLimit) ran
  | reportCycleExpiry => exact awake (kept.expire .reportCycle) ran
  | storeTimerExpiry => exact awake (kept.expire .store) ran
  | relayTransmissionStart l => exact awake (kept.relayStart l) ran
  | relayTransmissionEnd l => exact awake (kept.relayEnd l) ran
  | writeCompletion readBack => exact awake (kept.writeCompletion readBack) ran
  | transmissionStart => exact kept.next holds ran
  | transmissionEnd => exact awake kept.endTransmission ran
  | telegramAddressedElsewhere address kind body =>
    exact awake (kept.countTelegramArrives body fun {_} => kept.judgeCountTelegram address kind body) ran
  | requestOfUnknownKind kind body => exact request kind body ran
  | statusQuery body | sectionQuery body | start body | halt body | sectionReset body | headQuery body
  | headRelease body | headAdopt body | linkQuery body | headRelay body | tableWrite body
  | tableRead body | tableCopy body | tableCheck body | tableActivate body | store body
  | commission body | eraseStore body | hold body | proceed body => exact request _ body ran

/-- Every step keeps what each kind of event keeps. -/
theorem step (kept : KeptByEvents P) {s t : State} (holds : P s.toPart) (ran : step s = .next t) :
    P t.toPart := by
  unfold Machine.step at ran
  cases waiting : s.pending with
  | nil =>
    rw [waiting] at ran
    exact kept.next (unlessReset kept.onItsOwn holds) ran
  | cons c rest =>
    rw [waiting] at ran
    exact kept.exec (s := { s with pending := rest }) c holds ran

end KeptByEvents

end Sys2Proof.Machine
end

section
/-! SUPPORT. The decoders beside their heads (R2, R18): what a decoder's record must be in each state of its
head, and that every event keeps it so. -/

namespace Sys2Proof.Machine

/-! ## A decoder in a state of its head -/

/-- The decoder shows FREE, NONE and rock count 0 (R18). -/
def DecoderRec.AtRest (d : DecoderRec) : Prop := d.phase = .free ∧ d.side = .none ∧ d.rock = 0

/-- The decoder's record is one that R2 and R18 allow in a state of its head. -/
def DecoderRec.SoundIn (d : DecoderRec) (state : HeadState) : Prop :=
  (d.side = .none ↔ d.phase = .free) ∧ (state ≠ .inService → d.AtRest)

/-- Every decoder is sound in the state of its head. -/
def Part.DecodersSound (p : Part) : Prop := ∀ h, (p.decoder h).SoundIn (p.head h).state

theorem Part.decodersSound_iff (p : Part) : p.DecodersSound ↔ p.SidesAgree ∧ p.DecodersAtRest :=
  forall_and

theorem DecoderRec.rest_atRest (d : DecoderRec) : d.rest.AtRest := ⟨rfl, rfl, rfl⟩

theorem DecoderRec.reset_atRest : DecoderRec.reset.AtRest := ⟨rfl, rfl, rfl⟩

/-- A decoder at rest is sound in every state of its head. -/
theorem DecoderRec.AtRest.soundIn {d : DecoderRec} (rest : d.AtRest) (state : HeadState) :
    d.SoundIn state := by
  obtain ⟨phase, side, rock⟩ := rest
  exact ⟨by simp [phase, side], fun _ => ⟨phase, side, rock⟩⟩

theorem DecoderRec.rocked_sidesAgree (d : DecoderRec) (limit : Nat) :
    (d.rocked limit).1.side = .none ↔ (d.rocked limit).1.phase = .free := by
  unfold DecoderRec.rocked
  split <;> simp

/-- A change entry keeps the entry side NONE exactly at FREE (R2, R5 to R10): it begins a passage on a side,
moves the phase off FREE, returns to FREE, or is a phase error. -/
theorem DecoderRec.judge_sidesAgree {d : DecoderRec} (agree : d.side = .none ↔ d.phase = .free)
    (limit : Nat) (entry : Phase) :
    (d.judge limit entry).1.side = .none ↔ (d.judge limit entry).1.phase = .free := by
  unfold DecoderRec.judge
  split
  case h_1 | h_2 => simp
  case h_3 phase | h_4 phase | h_5 phase | h_6 phase => simpa [phase] using agree
  case h_7 | h_8 =>
    split
    · simp [DecoderRec.crossed]
    · exact d.rocked_sidesAgree limit
    · exact agree
  case h_9 => exact agree

namespace Part.DecodersSound

variable {p q : Part}

/-! ## Writes of one record -/

/-- An operation that leaves the heads' states and the decoders as they are keeps the decoders sound. -/
theorem of_same (sound : p.DecodersSound) (states : ∀ h, (q.head h).state = (p.head h).state)
    (decoders : ∀ h, q.decoder h = p.decoder h) : q.DecodersSound := by
  intro h
  rw [states h, decoders h]
  exact sound h

theorem of_blocks (sound : p.DecodersSound) (heads : q.heads = p.heads)
    (decoders : q.decoders = p.decoders) : q.DecodersSound :=
  sound.of_same (fun h => by rw [Part.head, heads, ← Part.head]) fun h => by
    rw [Part.decoder, decoders, ← Part.decoder]

/-- A head that stays in its state, or that is not IN_SERVICE, may change its record. -/
theorem setHead (sound : p.DecodersSound) {h : HeadId} {r : HeadRec}
    (state : r.state = (p.head h).state ∨ (p.head h).state ≠ .inService) :
    (p.setHead h r).DecodersSound := by
  intro k
  rw [Part.setHead_decoder, Part.head_setHead_eq]
  split
  · rename_i e
    subst e
    rcases state with same | away
    · rw [same]
      exact sound k
    · exact ((sound k).2 away).soundIn _
  · exact sound k

theorem setDecoder (sound : p.DecodersSound) {h : HeadId} {d : DecoderRec}
    (decoder : d.SoundIn (p.head h).state) : (p.setDecoder h d).DecodersSound := by
  intro k
  rw [Part.setDecoder_head, Part.decoder_setDecoder_eq]
  split
  · rename_i e
    subst e
    exact decoder
  · exact sound k

theorem offer (sound : p.DecodersSound) (n : Notice) : (p.offer n).DecodersSound :=
  sound.of_blocks rfl rfl

/-! ## Heads -/

theorem failHead (sound : p.DecodersSound) (h : HeadId) (c : HeadCause) :
    (p.failHead h c).DecodersSound := by
  intro k
  rw [Part.failHead_decoder, Part.failHead_head]
  by_cases e : k = h
  · subst e
    by_cases service : (p.head k).state = .inService
    · simp [service, (DecoderRec.rest_atRest _).soundIn]
    · simp [service, ((sound k).2 service).soundIn]
  · simpa [e] using sound k

theorem changeHead (sound : p.DecodersSound) {h : HeadId} {f : HeadRec → HeadRec}
    (state : (f (p.head h)).state = (p.head h).state ∨ (p.head h).state ≠ .inService) :
    (p.changeHead h f).DecodersSound :=
  sound.setHead state

theorem silenceStep (sound : p.DecodersSound) (h : HeadId) : (p.silenceStep h).DecodersSound := by
  unfold Part.silenceStep
  cases state : (p.head h).state with
  | absent =>
    have begun := sound.changeHead (h := h)
      (f := fun r => { r with state := .acquiring, run := 0, identityConfirmed := false })
      (.inr (by simp [state]))
    exact (begun.changeHead (.inl rfl)).offer _
  | acquiring | inService => exact sound.changeHead (.inl rfl)
  | failed => exact sound

theorem restartRun (sound : p.DecodersSound) (h : HeadId) :
    (p.changeHead h HeadRec.restartRun).DecodersSound :=
  sound.changeHead (.inl rfl)

theorem restartMarkerStep (sound : p.DecodersSound) (h : HeadId) :
    (p.restartMarkerStep h).DecodersSound := by
  unfold Part.restartMarkerStep
  cases (p.head h).state with
  | inService => exact sound.failHead h _
  | acquiring => exact sound.restartRun h
  | failed | absent => exact sound

/-! ## The change list -/

theorem deliverEntry (sound : p.DecodersSound) {h : HeadId} (service : (p.head h).state = .inService)
    (entry : Phase) : (p.deliverEntry h entry).1.DecodersSound := by
  have judged : (p.setDecoder h
      ((p.decoder h).judge (p.headCfg h).rockLimit.toNat entry).1).DecodersSound :=
    sound.setDecoder ⟨DecoderRec.judge_sidesAgree (sound h).1 _ entry, fun away => absurd service away⟩
  unfold Part.deliverEntry
  dsimp only
  split
  · exact judged
  · exact judged.of_blocks (by simp) (by simp)
  · exact judged
  · exact judged.offer _
  · exact judged

theorem deliver (sound : p.DecodersSound) {h : HeadId} (service : (p.head h).state = .inService)
    (entries : List Phase) : (p.deliver h entries).1.DecodersSound := by
  induction entries generalizing p with
  | nil => exact sound
  | cons entry rest ih =>
    have delivered := sound.deliverEntry service entry
    have kept : ((p.deliverEntry h entry).1.head h).state = .inService := by simpa using service
    unfold Part.deliver
    split
    · rename_i q e
      rw [e] at delivered
      exact delivered
    · rename_i q e
      rw [e] at delivered kept
      exact ih delivered kept

theorem changeListInService (sound : p.DecodersSound) {h : HeadId}
    (service : (p.head h).state = .inService) (t : HeadTelegram) :
    (p.changeListInService h t).DecodersSound := by
  have delivered := sound.deliver service t.changes
  unfold Part.changeListInService
  split <;> rename_i e <;> rw [e] at delivered
  · exact delivered.failHead h _
  · split
    · exact delivered
    · exact delivered.failHead h _

theorem changeListStep (sound : p.DecodersSound) (h : HeadId) (t : HeadTelegram) :
    (p.changeListStep h t).DecodersSound := by
  unfold Part.changeListStep
  cases state : (p.head h).state with
  | inService => exact sound.changeListInService state t
  | acquiring => exact sound.changeHead (.inr (by simp [state]))
  | failed | absent => exact sound

theorem bridgedStep (sound : p.DecodersSound) (h : HeadId) (missing : Nat) (t : HeadTelegram) :
    (p.bridgedStep h missing t).DecodersSound := by
  have offered := sound.offer (.gapBridged h missing)
  unfold Part.bridgedStep
  dsimp only
  cases state : ((p.offer (.gapBridged h missing)).head h).state with
  | inService => exact offered.changeListInService state t
  | acquiring => exact offered.restartRun h
  | failed | absent => exact offered

theorem sequenceLossStep (sound : p.DecodersSound) (h : HeadId) :
    (p.sequenceLossStep h).DecodersSound := by
  unfold Part.sequenceLossStep
  cases (p.head h).state with
  | inService => exact sound.failHead h _
  | acquiring => exact sound.restartRun h
  | failed | absent => exact sound

/-! ## The later steps -/

theorem healthFault (sound : p.DecodersSound) (h : HeadId) (c : HeadCause) :
    (p.healthFault h c).DecodersSound := by
  unfold Part.healthFault
  cases (p.head h).state with
  | inService => exact sound.failHead h c
  | acquiring => exact sound.restartRun h
  | failed | absent => exact sound

theorem levelsStep (sound : p.DecodersSound) (h : HeadId) (b : Health) :
    (p.levelsStep h b).DecodersSound := by
  unfold Part.levelsStep
  dsimp only
  split
  · exact sound.healthFault h _
  · split
    · exact sound.healthFault h _
    · exact sound

theorem temperatureStep (sound : p.DecodersSound) (h : HeadId) (old : Option Health) (b : Health) :
    (p.temperatureStep h old b).DecodersSound :=
  sound.of_blocks (by simp) (by simp)

theorem identityStep (sound : p.DecodersSound) (h : HeadId) (b : Health) :
    (p.identityStep h b).DecodersSound := by
  unfold Part.identityStep
  split
  · have learned := sound.changeHead (h := h) (f := fun r => { r with learned := some b.identity })
      (.inl rfl)
    dsimp only
    split
    · exact learned
    · exact learned.offer _
  · split
    · cases (p.head h).state with
      | acquiring => exact sound.changeHead (.inl rfl)
      | inService | failed | absent => exact sound
    · cases (p.head h).state with
      | acquiring | inService => exact sound.failHead h _
      | failed | absent => exact sound

theorem healthStep (sound : p.DecodersSound) (h : HeadId) (t : HeadTelegram) :
    (p.healthStep h t).DecodersSound := by
  unfold Part.healthStep
  cases t.health with
  | none => exact sound
  | some b =>
    have stored := sound.changeHead (h := h) (f := fun r => { r with health := some b }) (.inl rfl)
    exact ((stored.levelsStep h b).temperatureStep h (p.head h).health b).identityStep h b

theorem admissionStep (sound : p.DecodersSound) (h : HeadId) : (p.admissionStep h).DecodersSound := by
  unfold Part.admissionStep
  cases state : (p.head h).state with
  | acquiring =>
    dsimp only
    split
    · have admitted := sound.changeHead (h := h) (f := fun r => { r with state := .inService })
        (.inr (by simp [state]))
      exact (admitted.setDecoder ((DecoderRec.rest_atRest _).soundIn _)).offer _
    · exact sound
  | inService | failed | absent => exact sound

theorem laterSteps (sound : p.DecodersSound) (l : LinkId) (h : HeadId) (t : HeadTelegram) :
    (p.laterSteps l h t).DecodersSound := by
  have echoed : ((p.healthStep h t).echoStep l t).DecodersSound :=
    (sound.healthStep h t).of_blocks (by simp) (by simp)
  exact (echoed.changeHead (.inl rfl)).admissionStep h

/-- A telegram of a head keeps the decoders sound, whatever its sequence (R24). -/
theorem takeTelegram (sound : p.DecodersSound) (l : LinkId) (h : HeadId) (t : HeadTelegram) :
    (p.takeTelegram l h t).1.DecodersSound := by
  have heard := sound.silenceStep h
  unfold Part.takeTelegram
  dsimp only
  split
  · exact (heard.restartMarkerStep h).laterSteps l h t
  · split
    · exact heard
    · exact (heard.changeListStep h t).laterSteps l h t
    · exact (heard.bridgedStep h _ t).laterSteps l h t
    · exact (heard.sequenceLossStep h).laterSteps l h t

/-! ## The head links -/

theorem setLink (sound : p.DecodersSound) (l : LinkId) (k : LinkRec) : (p.setLink l k).DecodersSound :=
  sound.of_blocks rfl rfl

theorem loseHead (sound : p.DecodersSound) (h : HeadId) : (p.loseHead h).DecodersSound := by
  unfold Part.loseHead
  cases (p.head h).state with
  | acquiring | inService => exact sound.failHead h _
  | absent | failed => exact sound

theorem loseHeads (sound : p.DecodersSound) (l : LinkId) : (p.loseHeads l).DecodersSound :=
  foldl_inv Part.DecodersSound _ (fun _ h sound => sound.loseHead h) _ p sound

theorem linkLoss (sound : p.DecodersSound) (l : LinkId) : (p.linkLoss l).DecodersSound := by
  have searching := (sound.setLink l { (p.link l).toSearch with latch := true }).offer
    (.linkState l .search (p.link l).polarityHeld)
  exact (searching.loseHeads l).of_blocks (by simp [Part.linkLoss]) (by simp [Part.linkLoss])

theorem badFrame (sound : p.DecodersSound) (l : LinkId) (kind : BadFrame) (rx : Rx) :
    (p.badFrame l kind rx).DecodersSound := by
  unfold Part.badFrame
  dsimp only
  split
  · exact (sound.setLink l _).linkLoss l
  · exact sound.setLink l _

theorem mappedTelegram (sound : p.DecodersSound) (l : LinkId) (h : HeadId) (t : HeadTelegram)
    (octets : List Octet) : (p.mappedTelegram l h t octets).DecodersSound := by
  have taken := sound.takeTelegram l h t
  refine taken.of_blocks ?_ ?_ <;>
  · unfold Part.mappedTelegram
    dsimp only
    (repeat' split) <;> simp

theorem lockedTelegram (sound : p.DecodersSound) (l : LinkId) (octets : List Octet) :
    (p.lockedTelegram l octets).DecodersSound := by
  unfold Part.lockedTelegram
  split
  · exact sound.badFrame l _ _
  · split
    · exact sound.setLink l _
    · exact sound.mappedTelegram l _ _ octets

theorem searchOctet (sound : p.DecodersSound) (l : LinkId)
    (candidate : Option (Polarity × List Octet)) (o : Octet) :
    (p.searchOctet l candidate o).DecodersSound := by
  cases candidate with
  | none =>
    unfold Part.searchOctet
    dsimp only
    split
    · exact sound.setLink l _
    · split
      · exact sound.setLink l _
      · exact sound
  | some begun =>
    obtain ⟨polarity, octets⟩ := begun
    unfold Part.searchOctet
    dsimp only
    split
    · exact sound.setLink l _
    · exact sound.setLink l _
    · exact sound.setLink l _
    · exact ((sound.setLink l _).offer _).lockedTelegram l _

theorem lockedOctet (sound : p.DecodersSound) (l : LinkId) (rx : Rx) (o : Octet) :
    (p.lockedOctet l rx o).DecodersSound := by
  unfold Part.lockedOctet
  dsimp only
  cases rx with
  | wait =>
    dsimp only
    split
    · exact sound.setLink l _
    · exact sound.badFrame l _ _
  | hunt =>
    dsimp only
    split
    · exact sound.setLink l _
    · exact sound
  | frame octets =>
    dsimp only
    split
    · exact sound.setLink l _
    · exact sound.badFrame l _ _
    · exact sound.badFrame l _ _
    · exact (sound.setLink l _).lockedTelegram l _

theorem linkOctet (sound : p.DecodersSound) (l : LinkId) (o : Octet) :
    (p.linkOctet l o).DecodersSound := by
  unfold Part.linkOctet
  dsimp only
  split
  · exact sound
  · split
    · exact sound
    · exact sound.searchOctet l _ o
    · exact sound.lockedOctet l _ _

theorem linkCharTimeout (sound : p.DecodersSound) (l : LinkId) :
    (p.linkCharTimeout l).DecodersSound := by
  unfold Part.linkCharTimeout
  split
  · exact sound.badFrame l _ _
  · exact sound
  · exact sound
  · exact sound.setLink l _
  · exact sound

theorem linkQuiet (sound : p.DecodersSound) (l : LinkId) : (p.linkQuiet l).DecodersSound := by
  have timedOut := sound.linkCharTimeout l
  unfold Part.linkQuiet
  dsimp only
  split
  · exact sound
  · split
    · exact timedOut.setLink l _
    · exact timedOut
    · exact timedOut

/-! ## Requests -/

theorem headReleaseRequest (sound : p.DecodersSound) (body : List Octet) :
    (headReleaseRequest body p).1.DecodersSound := by
  unfold Machine.headReleaseRequest
  split
  · exact sound
  · split
    · exact sound
    · split
      · exact sound
      · rename_i failed
        exact (sound.changeHead (.inr (by simp_all))).offer _

theorem clearHead (sound : p.DecodersSound) (h : HeadId) : (p.clearHead h).DecodersSound := by
  intro k
  unfold Part.clearHead
  rw [Part.decoder_setDecoder_eq, Part.setDecoder_head, Part.head_setHead_eq]
  split
  · exact DecoderRec.reset_atRest.soundIn _
  · exact sound k

theorem activate (sound : p.DecodersSound) (crc : Crc) : (p.activate crc).DecodersSound := by
  have installed : (p.setTables { p.tables with
      active := some { table := p.tables.staging, crc := crc } }).DecodersSound :=
    sound.of_blocks rfl rfl
  have cleared := foldl_inv Part.DecodersSound
    (fun q h => if headCleared p.activeTable p.tables.staging h then q.clearHead h else q)
    (fun q h sound => by
      split
      · exact sound.clearHead h
      · exact sound) (List.finRange 32) _ installed
  refine cleared.of_blocks ?_ ?_ <;> simp [Part.activate, Part.activateHeads]

theorem tableActivateRequest (sound : p.DecodersSound) (body : List Octet) :
    (tableActivateRequest body p).1.DecodersSound := by
  unfold Machine.tableActivateRequest
  split
  · exact sound
  · split
    · exact sound.activate _
    · exact sound

end Part.DecodersSound

theorem haltRequest_keeps_heads (body : List Octet) (p : Part) :
    (haltRequest body p).1.heads = p.heads ∧ (haltRequest body p).1.decoders = p.decoders := by
  unfold haltRequest
  split
  · have kept := foldl_keeps (fun q : Part => (q.heads, q.decoders))
      (fun q i => q.disturbUnlessDisturbed i .halt) (fun q i => by simp)
      p.activeTable.presentSections (p.setEvaluator .halted)
    simpa using kept
  · exact ⟨rfl, rfl⟩

/-- A request keeps the decoders sound: HEAD RELEASE and TABLE ACTIVATE by their own lemmas, and every
other because it changes no head's and no decoder's record. -/
theorem requestOwners_keep_decodersSound :
    ∀ owner ∈ requestOwners, ∀ body p, p.DecodersSound → (owner body p).1.DecodersSound := by
  have plain {owner : List Octet → Part → Part × Answer}
      (kept : ∀ body p, (owner body p).1.heads = p.heads ∧ (owner body p).1.decoders = p.decoders) :
      ∀ body p, p.DecodersSound → (owner body p).1.DecodersSound :=
    fun body p sound => sound.of_blocks (kept body p).1 (kept body p).2
  simp only [requestOwners, List.forall_mem_cons]
  refine ⟨plain ?_, plain ?_, plain ?_, plain haltRequest_keeps_heads, plain ?_, plain ?_,
    fun body _ sound => sound.headReleaseRequest body, plain ?_, plain ?_, plain ?_, plain ?_, plain ?_,
    plain ?_, plain ?_, fun body _ sound => sound.tableActivateRequest body, plain ?_, plain ?_,
    plain ?_, plain ?_, plain ?_, plain ?_, List.forall_mem_nil _⟩
  all_goals
    intro body p
    simp only [statusQueryRequest, sectionQueryRequest, startRequest, sectionResetRequest,
      headQueryRequest, headAdoptRequest, linkQueryRequest, headRelayRequest, tableWriteRequest,
      tableReadRequest, tableCopyRequest, tableCheckRequest, storeRequest, commissionRequest,
      eraseStoreRequest, holdRequest, proceedRequest, noOwner]
    (repeat' split) <;> simp

namespace Part.DecodersSound

variable {p : Part}

theorem takeRequest (sound : p.DecodersSound) (kind : Octet) (body : List Octet) :
    (p.takeRequest kind body (ownerOf kind)).DecodersSound := by
  unfold Part.takeRequest
  split
  · exact sound.of_blocks rfl rfl
  · split
    · exact (requestOwners_keep_decodersSound _ (ownerOf_mem kind) body p sound).of_blocks rfl rfl
    · exact sound.of_blocks rfl rfl

/-! ## Expiries, full reset and start-up -/

theorem silenceExpiry (sound : p.DecodersSound) (h : HeadId) : (p.silenceExpiry h).DecodersSound := by
  unfold Part.silenceExpiry
  split
  · exact sound
  · cases state : (p.head h).state with
    | acquiring => exact (sound.changeHead (.inr (by simp [state]))).offer _
    | inService => exact sound.failHead h _
    | failed | absent => exact sound.changeHead (.inl rfl)

theorem expire (sound : p.DecodersSound) (t : TimerId) : (p.expire t).DecodersSound := by
  cases t with
  | silence h => exact sound.silenceExpiry h
  | confirm | relay | holdLimit | reportCycle | store =>
    exact sound.of_blocks (by simp [Part.expire]) (by simp [Part.expire])

/-- After a full reset every decoder is at rest, whatever the part was. -/
theorem fullReset (p : Part) : p.fullReset.DecodersSound := by
  intro h
  rw [Part.fullReset_decoder]
  exact DecoderRec.reset_atRest.soundIn _

theorem startUp (sound : p.DecodersSound) : p.startUp.DecodersSound :=
  sound.of_blocks (by simp) (by simp)

/-- Every kind of event keeps the decoders sound. -/
theorem keptByEvents : KeptByEvents Part.DecodersSound where
  setPins _ sound := sound.of_blocks rfl rfl
  fullReset _ := fullReset _
  startUp sound := sound.startUp
  linkOctet l o sound := sound.linkOctet l o
  linkCharTimeout l sound := sound.linkCharTimeout l
  linkQuiet l sound := sound.linkQuiet l
  setCountRx _ sound := sound.of_blocks rfl rfl
  countBadLength sound := sound.of_blocks rfl rfl
  countBadFrame _ sound := sound.of_blocks rfl rfl
  takeRequest kind body sound := sound.takeRequest kind body
  countDown sound := sound.of_same (by simp) (by simp)
  expire t sound := sound.expire t
  relayStart _ sound := sound.of_blocks (by simp) (by simp)
  relayEnd _ sound := sound.of_blocks (by simp) (by simp)
  writeCompletion _ sound := sound.of_blocks (by simp) (by simp)
  endTransmission sound := sound.of_blocks (by simp) (by simp)
  afterEvent sound := sound.of_blocks (by simp) (by simp)

end Part.DecodersSound

/-- Settles O50: R2 and R18 together say that every decoder is sound in the state of its head, and every kind
of event keeps that. -/
theorem stepsKeepDecodersSound : Obligations.StepsKeepDecodersSound := by
  intro s t sides rest ran
  exact t.toPart.decodersSound_iff.1
    (Part.DecodersSound.keptByEvents.step (s.toPart.decodersSound_iff.2 ⟨sides, rest⟩) ran)

end Sys2Proof.Machine
end

section
/-! SUPPORT. The phase decoder (R4 to R10): what each change entry makes of a decoder's record, and what
the supervisor does with the result. -/

namespace Sys2Proof.Machine

/-! ## The judgement of an entry -/

/-- An entry that names the decoder's own phase, or one not adjacent to it, is a phase error (R9, R10). -/
theorem DecoderRec.judge_phaseError {d : DecoderRec} {entry : Phase}
    (error : entry = d.phase ∨ d.phase = .free ∧ entry = .both ∨ d.phase = .both ∧ entry = .free ∨
      d.phase = .aOnly ∧ entry = .bOnly ∨ d.phase = .bOnly ∧ entry = .aOnly) (limit : Nat) :
    d.judge limit entry = (d, .phaseError) := by
  rcases error with same | ⟨phase, rfl⟩ | ⟨phase, rfl⟩ | ⟨phase, rfl⟩ | ⟨phase, rfl⟩
  · subst same
    cases phase : d.phase <;> simp [DecoderRec.judge, phase]
  all_goals simp [DecoderRec.judge, phase]

theorem DecoderRec.judge_crossing_ab {d : DecoderRec} (phase : d.phase = .bOnly) (side : d.side = .a)
    (limit : Nat) : d.judge limit .free = (d.crossed .ab, .wheel .ab) := by
  simp [DecoderRec.judge, phase, side]

theorem DecoderRec.judge_crossing_ba {d : DecoderRec} (phase : d.phase = .aOnly) (side : d.side = .b)
    (limit : Nat) : d.judge limit .free = (d.crossed .ba, .wheel .ba) := by
  simp [DecoderRec.judge, phase, side]

/-- A return to FREE on the side of entry is a rock return (R8). -/
theorem DecoderRec.judge_nearSide {d : DecoderRec}
    (near : d.phase = .aOnly ∧ d.side = .a ∨ d.phase = .bOnly ∧ d.side = .b) (limit : Nat) :
    d.judge limit .free = d.rocked limit := by
  rcases near with ⟨phase, side⟩ | ⟨phase, side⟩ <;> simp [DecoderRec.judge, phase, side]

theorem DecoderRec.rocked_below {d : DecoderRec} {limit : Nat} (below : d.rock + 1 < limit) :
    d.rocked limit =
      ({ d with phase := .free, side := .none, rock := d.rock + 1 }, .rockReturn) :=
  if_pos below

theorem DecoderRec.rocked_atLimit {d : DecoderRec} {limit : Nat} (reached : limit ≤ d.rock + 1) :
    d.rocked limit = ({ d with phase := .free, side := .none, rock := 0 }, .rocking d.side) :=
  if_neg (Nat.not_lt.2 reached)

theorem DecoderRec.rocked_ne_wheel (d : DecoderRec) (limit : Nat) (dir : Dir) :
    (d.rocked limit).2 ≠ .wheel dir := by
  unfold DecoderRec.rocked
  split <;> simp

/-- A wheel event comes exactly of a return to FREE on the side opposite to the entry side (R7). -/
theorem DecoderRec.judge_wheel_iff (d : DecoderRec) (limit : Nat) (entry : Phase) (dir : Dir) :
    (d.judge limit entry).2 = .wheel dir ↔
      entry = .free ∧ (d.phase = .bOnly ∧ d.side = .a ∧ dir = .ab ∨
        d.phase = .aOnly ∧ d.side = .b ∧ dir = .ba) := by
  constructor
  · unfold DecoderRec.judge
    split
    case h_7 phase | h_8 phase =>
      split
      · rename_i side
        rintro ⟨⟩
        simp [phase, side]
      · exact fun wheel => absurd wheel (d.rocked_ne_wheel limit dir)
      · simp
    all_goals simp
  · rintro ⟨rfl, ⟨phase, side, rfl⟩ | ⟨phase, side, rfl⟩⟩
    · rw [DecoderRec.judge_crossing_ab phase side]
    · rw [DecoderRec.judge_crossing_ba phase side]

/-! ## The delivery of an entry (R4) -/

section

variable {p : Part} {h : HeadId} {entry : Phase} {d : DecoderRec}

theorem Part.deliverEntry_of_wheel {dir : Dir}
    (judged : (p.decoder h).judge (p.headCfg h).rockLimit.toNat entry = (d, .wheel dir)) :
    p.deliverEntry h entry = ((p.setDecoder h d).wheelEvent h dir, false) := by
  simp [Part.deliverEntry, judged]

theorem Part.deliverEntry_of_rockReturn
    (judged : (p.decoder h).judge (p.headCfg h).rockLimit.toNat entry = (d, .rockReturn)) :
    p.deliverEntry h entry = (p.setDecoder h d, false) := by
  simp [Part.deliverEntry, judged]

theorem Part.deliverEntry_of_rocking {side : EntrySide}
    (judged : (p.decoder h).judge (p.headCfg h).rockLimit.toNat entry = (d, .rocking side)) :
    p.deliverEntry h entry = ((p.setDecoder h d).offer (.headRocking h side), false) := by
  simp [Part.deliverEntry, judged]

/-- A decoder's record written back changes nothing. -/
theorem Part.setDecoder_decoder (p : Part) (h : HeadId) : p.setDecoder h (p.decoder h) = p := by
  simp [Part.setDecoder, Part.decoder]

theorem Part.deliverEntry_of_phaseError
    (judged : (p.decoder h).judge (p.headCfg h).rockLimit.toNat entry = (p.decoder h, .phaseError)) :
    p.deliverEntry h entry = (p, true) := by
  simp [Part.deliverEntry, judged, Part.setDecoder_decoder]

end

/-! ## The delivery of a list (R3, R11) -/

/-- Entries delivered without a phase error, and then the rest of the list. -/
theorem Part.deliver_append {p q : Part} {h : HeadId} {done : List Phase} (rest : List Phase)
    (delivered : p.deliver h done = (q, false)) : p.deliver h (done ++ rest) = q.deliver h rest := by
  induction done generalizing p with
  | nil =>
    cases delivered
    rfl
  | cons entry done ih =>
    rw [List.cons_append]
    rw [Part.deliver] at delivered ⊢
    split at delivered
    · cases delivered
    · exact ih delivered

/-- A phase error ends the delivery, and the head fails (R11). -/
theorem Part.changeListInService_of_phaseError {p q : Part} {h : HeadId} {t : HeadTelegram}
    {done rest : List Phase} {entry : Phase} (changes : t.changes = done ++ entry :: rest)
    (delivered : p.deliver h done = (q, false)) (error : q.deliverEntry h entry = (q, true)) :
    p.changeListInService h t = q.failHead h .phaseError := by
  have ended : p.deliver h t.changes = (q, true) := by
    rw [changes, Part.deliver_append _ delivered, Part.deliver, error]
  rw [Part.changeListInService, ended]

/-! ## The statements -/

/-- Settles O19: the judgement entry by entry, and a phase error, wherever it stands, ends the delivery with
the head's failure. -/
theorem entriesThatMoveTheWheelOrAreErrors : Obligations.EntriesThatMoveTheWheelOrAreErrors := by
  refine ⟨fun d limit => ?_, fun d limit entry error => DecoderRec.judge_phaseError error limit, ?_⟩
  · refine ⟨?_, ?_, ?_, ?_, ?_⟩ <;> exact fun phase => by simp [DecoderRec.judge, phase]
  · intro p q h t done entry rest changes delivered service judged
    refine ⟨Part.changeListInService_of_phaseError changes delivered
      (Part.deliverEntry_of_phaseError judged), ?_, ?_⟩
    · rw [Part.failHead_head, if_pos rfl]
      rfl
    · rw [Part.failHead_decoder, if_pos ⟨rfl, service⟩]
      rfl

/-- Settles O20: the judgement of a return to FREE by its side, and what the supervisor does with a wheel
event, a rock return and a rocking head. -/
theorem returnsToFree : Obligations.ReturnsToFree := by
  refine ⟨DecoderRec.judge_wheel_iff, fun p h phase side => ?_, fun p h phase side => ?_,
    fun p h near => ⟨fun below => ?_, fun reached => ?_⟩⟩
  · exact Part.deliverEntry_of_wheel (DecoderRec.judge_crossing_ab phase side _)
  · exact Part.deliverEntry_of_wheel (DecoderRec.judge_crossing_ba phase side _)
  · exact Part.deliverEntry_of_rockReturn
      ((DecoderRec.judge_nearSide near _).trans (DecoderRec.rocked_below below))
  · exact Part.deliverEntry_of_rocking
      ((DecoderRec.judge_nearSide near _).trans (DecoderRec.rocked_atLimit reached))

end Sys2Proof.Machine
end

section
/-! SUPPORT. Full reset and start-up (R163): what a part in full reset holds, what the start-up sequence makes
of the sections, and what the count line then takes. -/

namespace Sys2Proof.Machine

/-! ## Full reset -/

/-- No section is present while there is no active table (R83). -/
theorem Part.sectionCfg_of_noTable {p : Part} (noTable : p.tables.active = none) (i : SectionId) :
    p.sectionCfg i = SectionRecord.blank := by
  simp [Part.sectionCfg, Part.activeTable, noTable, Table.sectionCfg, Table.blank]

/-! ## The start-up sequence -/

/-- Every section that exists is DISTURBED with START_UP (R126). -/
def Part.StartedUp (p : Part) : Prop :=
  ∀ i, (p.sectionCfg i).present = true → (p.sec i).state = .disturbed ∧ (p.sec i).cause = .startUp

theorem Part.StartedUp.of_noTable {p : Part} (noTable : p.tables.active = none) : p.StartedUp := by
  intro i present
  rw [Part.sectionCfg_of_noTable noTable] at present
  cases present

/-- The end of an event reads latches at most. -/
theorem Part.StartedUp.afterEvent {p : Part} (started : p.StartedUp) : p.afterEvent.StartedUp := by
  intro i present
  obtain ⟨latch, read⟩ := p.afterEvent_sec i
  rw [read]
  exact started i (by simpa using present)

theorem Part.startUpLoad_sec (p : Part) (body : ImageBody) (i : SectionId) :
    (p.startUpLoad body).sec i =
      if (body.table.sectionCfg i).present then (p.sec i).disturb .startUp else p.sec i := by
  unfold Part.startUpLoad
  simp only [Part.setReport_sec]
  rw [foldl_keeps (fun q : Part => q.sec i) _ (fun q l => by split <;> rfl), Part.setEvaluator_sec,
    Part.foldl_sec _ (fun _ r => r.disturb .startUp) (fun q i j => q.disturb_sec i j _) _
      body.table.presentSections_nodup]
  simp

@[simp] theorem Part.startUpLoad_activeTable (p : Part) (body : ImageBody) :
    (p.startUpLoad body).activeTable = body.table := by
  unfold Part.startUpLoad
  simp only [Part.setReport_activeTable]
  rw [foldl_keeps Part.activeTable _ (fun q l => by split <;> rfl), Part.setEvaluator_activeTable,
    foldl_keeps Part.activeTable _ (fun q l => by simp)]
  rfl

theorem Part.startUp_startedUp {p : Part} (noTable : p.tables.active = none) : p.startUp.StartedUp := by
  unfold Part.startUp
  dsimp only
  split
  · intro i present
    rw [Part.sectionCfg, Part.startUpLoad_activeTable] at present
    rw [Part.startUpLoad_sec, if_pos present]
    exact ⟨rfl, rfl⟩
  · exact .of_noTable noTable

/-! ## A part as a full reset or a start-up leaves it -/

/-- The heads, the decoders and the count line have their reset values, and every section that exists is
DISTURBED with START_UP (R14, R23, R146, R126). -/
structure Part.FreshlyReset (p : Part) : Prop where
  heads    : ∀ h, p.head h = HeadRec.reset
  decoders : ∀ h, p.decoder h = DecoderRec.reset
  count    : p.count = CountLine.reset
  sections : p.StartedUp

theorem Part.FreshlyReset.afterEvent {p : Part} (fresh : p.FreshlyReset) : p.afterEvent.FreshlyReset where
  heads h := by simp [fresh.heads]
  decoders h := by simp [fresh.decoders]
  count := by simp [fresh.count]
  sections := fresh.sections.afterEvent

theorem Part.fullReset_freshlyReset (p : Part) : p.fullReset.FreshlyReset where
  heads := p.fullReset_head
  decoders := p.fullReset_decoder
  count := p.fullReset_count
  sections := .of_noTable rfl

theorem Part.startUp_freshlyReset (p : Part) : p.fullReset.startUp.FreshlyReset where
  heads h := by simp
  decoders h := by simp
  count := by simp
  sections := Part.startUp_startedUp rfl

/-- A full reset leaves the part freshly reset, and so does the event that ends it for good (R163). -/
theorem exec_reset_freshlyReset {s t : State}
    (reset : (∃ cause, exec (.fullReset cause) s = .next t) ∨
      (s.toPart.inReset = true ∧ t.awake ∧ ∃ event, exec (.fullResetEnd event) s = .next t)) :
    t.toPart.FreshlyReset := by
  rcases reset with ⟨cause, ran⟩ | ⟨held, awake, event, ran⟩
  · cases ran
    exact (Part.fullReset_freshlyReset _).afterEvent
  · have ends : exec (.fullResetEnd event) s = s.next (s.setPins (s.pins.endReset event)).leaveReset := by
      show s.next (if s.inReset = true then _ else _) = _
      rw [if_pos held]
    rw [ends] at ran
    cases ran
    have released : ¬ (s.setPins (s.pins.endReset event)).inReset = true := by
      intro stillHeld
      rw [State.awake, State.afterEvent_toPart, Part.afterEvent_inReset, Part.leaveReset,
        if_pos stillHeld, stillHeld] at awake
      cases awake
    rw [State.afterEvent_toPart, Part.leaveReset, if_neg released]
    exact (Part.startUp_freshlyReset _).afterEvent

/-! ## The count line of such a part -/

/-- A command that a held part does not take changes nothing (R163). -/
theorem State.next_unlessReset_held {s : State} (held : s.inReset = true) (f : Part → Part) :
    s.next (s.toPart.unlessReset f) = .next s := by
  rw [Part.unlessReset_inReset held, State.next, State.afterEvent, Part.afterEvent_of_inReset held]

/-- An awake part whose count line is in WAIT takes a SYNC (R51). -/
theorem exec_sync_countLine {s : State} (awake : s.awake) (waits : s.count.rx = .wait) :
    exec (.syncMiss .countLine sync) s =
      .next (State.afterEvent { s with count := { s.count with rx := .frame [] } }) := by
  have taken : exec (.syncMiss .countLine sync) s =
      s.next (s.toPart.unlessReset fun p => p.countOctet sync) := rfl
  rw [taken, Part.unlessReset_awake awake, Part.countOctet_sync (.inl waits)]
  rfl

/-- Settles O4: the part is freshly reset either way, and its count line, in WAIT, takes octets exactly when
nothing holds the part. -/
theorem resetOfHeadsDecodersAndCountLine : Obligations.ResetOfHeadsDecodersAndCountLine := by
  intro s t reset
  obtain ⟨heads, decoders, count, sections⟩ := exec_reset_freshlyReset reset
  refine ⟨heads, decoders, count, sections, fun held octet => ?_, fun awake => ?_⟩
  · exact State.next_unlessReset_held held _
  · exact exec_sync_countLine awake (by rw [count]; rfl)

end Sys2Proof.Machine
end

section
/-! SUPPORT. A wheel counted (R7, R94, R109): the marks that a wheel event leaves, and a telegram in order of
an IN_SERVICE head step by step (R24). -/

namespace Sys2Proof.Machine

/-! ## The marks of a wheel event (R109) -/

/-- A section is marked at a wheel event unless it is ABSENT or DISTURBED, or takes an outward wheel in
RESTORING at count 0 (R99, R109, R119). -/
theorem SectionRec.wheel_marked (cfg : SectionRecord) (inward : Bool) (r : SectionRec) :
    (r.wheel cfg inward).2 =
      (decide (r.state ≠ .absent) && decide (r.state ≠ .disturbed) &&
        !(decide (r.state = .restoring) && decide (r.count = 0) && !inward)) := by
  cases inward with
  | true =>
    simp only [SectionRec.wheel, SectionRec.inward, if_true]
    cases r.state <;> simp only
    case occupied | restoring => split <;> simp
    all_goals simp
  | false =>
    simp only [SectionRec.wheel, SectionRec.outward, Bool.false_eq_true, if_false]
    cases r.state <;> simp only
    case occupied => split <;> simp
    case restoring => (repeat' split) <;> simp <;> omega
    all_goals simp

theorem Part.applyWheel_report (p : Part) (i : SectionId) (inward : Bool) :
    (p.applyWheel i inward).report =
      if ((p.sec i).wheel (p.sectionCfg i) inward).2 then p.report.mark i else p.report := by
  simp only [Part.applyWheel]
  split <;> rfl

/-- A wheel event marks, one after the other, the sections of the items that it changes. -/
theorem Part.foldl_applyWheel_report (inward : Octet → Bool) (items : List (SectionId × Octet))
    (nd : (items.map Prod.fst).Nodup) (p : Part) :
    (items.foldl (fun q item => q.applyWheel item.1 (inward item.2)) p).report =
      ((items.filter fun item =>
        ((p.sec item.1).wheel (p.sectionCfg item.1) (inward item.2)).2).map Prod.fst).foldl
          ReportUnit.mark p.report := by
  induction items generalizing p with
  | nil => rfl
  | cons x items ih =>
    rw [List.map_cons, List.nodup_cons] at nd
    obtain ⟨fresh, nd⟩ := nd
    have same : items.filter (fun item => (((p.applyWheel x.1 (inward x.2)).sec item.1).wheel
          ((p.applyWheel x.1 (inward x.2)).sectionCfg item.1) (inward item.2)).2) =
        items.filter fun item =>
          ((p.sec item.1).wheel (p.sectionCfg item.1) (inward item.2)).2 := by
      refine List.filter_congr fun item mem => ?_
      have ne : item.1 ≠ x.1 := fun e => fresh (e ▸ List.mem_map_of_mem mem)
      simp [Part.applyWheel_sec, ne]
    rw [List.foldl_cons, ih nd, same, Part.applyWheel_report, List.filter_cons]
    split <;> rfl

/-- The items of a boundary index that pass a test, by their sections in ascending number (R84). -/
theorem Table.boundaryIndex_filter (t : Table) (h : HeadId) (test : SectionId × Octet → Bool) :
    ((t.boundaryIndex h).filter test).map Prod.fst = (List.finRange 24).filter fun i =>
      (t.sectionCfg i).present && ((t.sectionCfg i).inwardAt h).any fun d => test (i, d) := by
  unfold Table.boundaryIndex
  induction List.finRange 24 with
  | nil => rfl
  | cons i l ih =>
    rw [List.filterMap_cons, List.filter_cons, ← ih]
    cases (t.sectionCfg i).present <;> cases (t.sectionCfg i).inwardAt h with
    | none => simp
    | some d => cases e : test (i, d) <;> simp [e]

/-- The sections that a wheel event marks join the report queue in ascending number, where they do not stand
in it already (R94, R109, R149). -/
theorem Part.wheelEvent_report (p : Part) (h : HeadId) (d : Dir) :
    (p.wheelEvent h d).report = { p.report with
      queue := p.report.queue ++ (List.finRange 24).filter fun i =>
        decide (p.evaluator = .running) && (p.sectionCfg i).present &&
          ((p.sectionCfg i).inwardAt h).any (fun inward =>
            ((p.sec i).wheel (p.sectionCfg i) (codeDir d == inward)).2) &&
          decide (i ∉ p.report.queue) } := by
  unfold Part.wheelEvent
  by_cases running : p.evaluator = .running
  · have marks (is : List SectionId) (nd : is.Nodup) : is.foldl ReportUnit.mark p.report =
        { p.report with queue := p.report.queue ++ is.filter fun i => decide (i ∉ p.report.queue) } := by
      rw [← Part.foldl_marks Part.mark is nd p fun _ _ _ => rfl]
      exact List.foldl_hom Part.report fun _ _ => rfl
    have index := p.activeTable.boundaryIndex_filter h fun item =>
      ((p.sec item.1).wheel (p.sectionCfg item.1) (codeDir d == item.2)).2
    rw [if_pos running, Part.foldl_applyWheel_report (fun inward => codeDir d == inward) _
      (p.activeTable.boundaryIndex_nodup h), index, marks _ ((List.nodup_finRange 24).filter _),
      List.filter_filter]
    simp [running, Part.sectionCfg, Bool.and_comm]
  · simp [running]

/-- A wheel event moves the sections and marks them, and does nothing else. -/
theorem Part.wheelEvent_eq (p : Part) (h : HeadId) (d : Dir) :
    p.wheelEvent h d =
      { p with sections := (p.wheelEvent h d).sections, report := (p.wheelEvent h d).report } := by
  have kept := p.wheelEvent_keeps h d
  generalize p.wheelEvent h d = q at kept
  cases p
  cases q
  simp_all

/-! ## A telegram of a mapped head (R56, R60) -/

/-- A telegram of a head that hears is taken as one event, with its receiver back in WAIT (R56). -/
theorem exec_headStatusTelegram_mapped {s : State} {l : LinkId} {h : HeadId} {polarity : Polarity}
    {rx : Rx} {station : Octet} {body : List Octet} {t : HeadTelegram}
    (hears : s.hears l h station polarity rx) (nonempty : 1 ≤ body.length) (fits : body.length ≤ 34)
    (parsed : parseHeadStatus station 0x01 body = some t) :
    exec (.headStatusTelegram l (onTheWire polarity station 0x01 body)) s =
      .next (State.afterEvent { s with
        toPart := (s.setLinkMode l (.locked polarity .wait)).mappedTelegram l h t
          (framed station 0x01 body) }) := by
  obtain ⟨⟨awake, quiet⟩, ⟨mode, listens, idle⟩, mapped⟩ := hears
  have judged : (s.setLinkMode l (.locked polarity .wait)).lockedTelegram l (framed station 0x01 body) =
      (s.setLinkMode l (.locked polarity .wait)).mappedTelegram l h t (framed station 0x01 body) := by
    have found : (s.setLinkMode l (.locked polarity .wait)).activeTable.stationMap l t.station =
        some h := by
      rw [parseHeadStatus_station parsed]
      exact mapped
    unfold Part.lockedTelegram
    simp only [addressOctet_framed, kindOctet_framed, bodyOctets_framed, parsed, found]
  have taken : exec (.headStatusTelegram l (onTheWire polarity station 0x01 body)) s =
      s.next (s.toPart.unlessReset fun p =>
        p.lineOctets (.headLink l) ((telegram station 0x01 body).map polarity.apply)) := rfl
  rw [taken, Part.unlessReset_awake awake,
    Part.headLink_telegram quiet mode listens idle station 0x01 nonempty fits, judged, State.next,
    State.afterEvent, State.afterEvent, Part.afterEvent_afterEvent]

/-- A telegram that is no repeat sets the link's run to 0, and its copy is offered where the head's mirror
flag is set (R56, R60). -/
theorem Part.mappedTelegram_of_taken {p q : Part} {l : LinkId} {h : HeadId} {t : HeadTelegram}
    (taken : p.takeTelegram l h t = (q, false)) (station : Octet) (body : List Octet) :
    p.mappedTelegram l h t (framed station 0x01 body) =
      (q.setLink l { q.link l with run := 0 }).copied l h station body := by
  have cfg : q.headCfg h = p.headCfg h := by
    obtain ⟨-, kept, -⟩ := p.takeTelegram_reads l h t
    rw [taken] at kept
    exact kept h
  simp only [Part.mappedTelegram, Part.copied, taken, Part.setLink_headCfg, cfg, Bool.false_eq_true,
    if_false]

@[simp] theorem Part.copied_sections (p : Part) (l : LinkId) (h : HeadId) (station : Octet)
    (body : List Octet) : (p.copied l h station body).sections = p.sections := by
  unfold Part.copied
  split <;> simp

/-! ## The steps of a telegram in order (R24, R28) -/

/-- The telegram next in order of an IN_SERVICE head goes through its change list and the later steps. -/
theorem Part.takeTelegram_inOrder {p : Part} {h : HeadId} {t : HeadTelegram} {b : Baseline}
    (service : (p.head h).state = .inService) (known : (p.head h).baseline = some b)
    (unmarked : t.restart = false) (next : t.sequence = b.sequence + 1) (l : LinkId) :
    p.takeTelegram l h t = (((p.startSilence h).changeListInService h t).laterSteps l h t, false) := by
  have heard : (p.startSilence h).head h =
      { p.head h with silence := .running (p.headCfg h).silenceTimeout.toNat } := by
    simp [Part.startSilence, Part.changeHead]
  have inOrder : sequenceVerdict false ((p.startSilence h).head h) t = .inOrder := by
    simp [sequenceVerdict, heard, known, service, judgeSequence, next]
  have still : ((p.startSilence h).head h).state = .inService := by rw [heard]; exact service
  simp only [Part.takeTelegram, Part.silenceStep, service, reduceCtorEq, decide_false, unmarked,
    Bool.false_eq_true, if_false, inOrder, Part.changeListStep, still]

/-- A change list delivered without a phase error, up to the present phase (R12). -/
theorem Part.changeListInService_of_delivered {p q : Part} {h : HeadId} {t : HeadTelegram}
    (delivered : p.deliver h t.changes = (q, false)) (agrees : (q.decoder h).phase = t.phase) :
    p.changeListInService h t = q := by
  rw [Part.changeListInService, delivered]
  exact if_pos agrees

/-- With no health block, no echo and no admission to judge, the later steps take the baseline alone. -/
theorem Part.laterSteps_plain {p : Part} {h : HeadId} {t : HeadTelegram}
    (service : (p.head h).state = .inService) (noHealth : t.health = none) (noEcho : t.echo = none)
    (l : LinkId) : p.laterSteps l h t = p.baselineStep h t := by
  have still : ((p.baselineStep h t).head h).state = .inService := by
    simpa [Part.baselineStep, Part.changeHead] using service
  simp only [Part.laterSteps, Part.healthStep, noHealth, Part.echoStep, noEcho, Part.admissionStep, still]

/-! ## A crossing -/

/-- The part in which a head has been heard and its wheel, which entered on A, has left on B: the decoder has
crossed and the section evaluator has taken the wheel (R25, R7, R94). -/
def Part.crossing (p : Part) (h : HeadId) : Part :=
  ((p.startSilence h).setDecoder h ((p.decoder h).crossed .ab)).wheelEvent h .ab

/-- A telegram whose only entry completes the passage: the wheel is counted, and the baseline is taken. -/
theorem Part.takeTelegram_crossing {p : Part} {h : HeadId} {t : HeadTelegram} {b : Baseline}
    (service : (p.head h).state = .inService) (known : (p.head h).baseline = some b)
    (unmarked : t.restart = false) (next : t.sequence = b.sequence + 1) (changes : t.changes = [.free])
    (present : t.phase = .free) (noHealth : t.health = none) (noEcho : t.echo = none)
    (phase : (p.decoder h).phase = .bOnly) (side : (p.decoder h).side = .a) (l : LinkId) :
    p.takeTelegram l h t = ((p.crossing h).baselineStep h t, false) := by
  have entry : (p.startSilence h).deliverEntry h .free = (p.crossing h, false) := by
    apply Part.deliverEntry_of_wheel
    simpa using DecoderRec.judge_crossing_ab phase side _
  have delivered : (p.startSilence h).deliver h t.changes = (p.crossing h, false) := by
    rw [changes, Part.deliver, entry]
    rfl
  have free : ((p.crossing h).decoder h).phase = t.phase := by
    simp [Part.crossing, DecoderRec.crossed, present]
  have still : ((p.crossing h).head h).state = .inService := by
    simpa [Part.crossing, Part.startSilence, Part.changeHead] using service
  rw [Part.takeTelegram_inOrder service known unmarked next,
    Part.changeListInService_of_delivered delivered free,
    Part.laterSteps_plain still noHealth noEcho]

/-- Each section of the boundary index takes the wheel in RUNNING, inward where its direction is AB, coded 1
(R94). -/
theorem Part.crossing_sec (p : Part) (h : HeadId) (i : SectionId) :
    (p.crossing h).sec i =
      if p.evaluator = .running ∧ (p.sectionCfg i).present = true then
        match (p.sectionCfg i).inwardAt h with
        | some d => ((p.sec i).wheel (p.sectionCfg i) (d == 1)).1
        | none => p.sec i
      else p.sec i := by
  have coded (d : Octet) : (codeDir .ab == d) = (d == 1) := BEq.comm
  simp only [Part.crossing, Part.wheelEvent_sec, coded]
  cases inward : (p.sectionCfg i).inwardAt h <;> simp [inward]

/-- The sections that the wheel changes join the report queue (R109). -/
theorem Part.crossing_report (p : Part) (h : HeadId) :
    (p.crossing h).report = { p.report with
      queue := p.report.queue ++ (List.finRange 24).filter fun i =>
        decide (p.evaluator = .running) && (p.sectionCfg i).present &&
          (match (p.sectionCfg i).inwardAt h with
            | none => false
            | some d =>
              decide ((p.sec i).state ≠ .absent) && decide ((p.sec i).state ≠ .disturbed) &&
                !(decide ((p.sec i).state = .restoring) && decide ((p.sec i).count = 0) &&
                  decide (d ≠ 1))) &&
          decide (i ∉ p.report.queue) } := by
  have coded (d : Octet) : (codeDir .ab == d) = (d == 1) := BEq.comm
  simp only [Part.crossing, Part.wheelEvent_report, SectionRec.wheel_marked, coded]
  congr 2
  refine List.filter_congr fun i _ => ?_
  cases inward : (p.sectionCfg i).inwardAt h <;> simp [inward, beq_eq_decide]

/-- What a crossing changes beside the sections and their marks, once the baseline is taken and the link's run
is 0: the silence timer and the baseline of the head, its decoder, and the link's record. -/
theorem Part.crossing_taken (p : Part) (l : LinkId) (mode : LinkMode) (h : HeadId) (t : HeadTelegram) :
    let taken := ((p.setLinkMode l mode).crossing h).baselineStep h t
    taken.setLink l { taken.link l with run := 0 } =
      { ((p.setLink l { p.link l with mode := mode, run := 0 }).setHead h { p.head h with
          silence := .running (p.headCfg h).silenceTimeout.toNat
          baseline := some { sequence := t.sequence, changeCount := t.changeCount } }).setDecoder h
            ((p.decoder h).crossed .ab) with
        sections := ((p.setLinkMode l mode).crossing h).sections
        report := ((p.setLinkMode l mode).crossing h).report } := by
  rw [Part.crossing, Part.wheelEvent_eq]
  generalize (Part.wheelEvent _ h .ab).sections = sections
  generalize (Part.wheelEvent _ h .ab).report = report
  simp [Part.baselineStep, Part.startSilence, Part.changeHead, Part.setLinkMode, Part.setHead,
    Part.setLink, Part.setDecoder, Part.link, Part.head, Part.decoder, Part.headCfg, Part.activeTable]

/-- Settles O18: the telegram is taken in order, its entry is a crossing, and what the crossing changes is the
state that the statement writes out. -/
theorem crossingIsCounted : Obligations.CrossingIsCounted := by
  intro s l h polarity rx station body t b hears nonempty fits parsed unmarked changes noHealth noEcho
    service known next phase side
  have present : t.phase = .free := by
    have last := parseHeadStatus_lastChange parsed
    simpa [changes, eq_comm] using last
  have taken := Part.takeTelegram_crossing (p := s.setLinkMode l (.locked polarity .wait)) service known
    unmarked next changes present noHealth noEcho phase side l
  have ran := exec_headStatusTelegram_mapped hears nonempty fits parsed
  rw [Part.mappedTelegram_of_taken taken, Part.crossing_taken] at ran
  refine ⟨_, ran, fun i => ?_, ?_⟩
  · have moved := (s.setLinkMode l (.locked polarity .wait)).crossing_sec h i
    simp only [Part.sec, Part.copied_sections]
    exact moved
  · simp only [Part.copied_sections, Part.crossing_report]
    rfl

end Sys2Proof.Machine
end

section
/-! SUPPORT. What the head supervisor and the head links keep, packaged once: a property that each write of a
telegram's steps keeps is kept by the telegram (R24), and one that each event of a head link's receiver keeps is
kept by every octet of the link. -/

namespace Sys2Proof.Machine

/-! ## The steps of a telegram (R24) -/

/-- What a step of a telegram, short of a failure, may make of the state and the silence timer of its head: it
leaves both as they are, it starts the timer of a head ACQUIRING or IN_SERVICE (R25, R41), or it admits an
ACQUIRING head with its timer as it is (R40). -/
def HeadRec.MayBecome (r r' : HeadRec) : Prop :=
  (r'.state = r.state ∧ r'.silence = r.silence) ∨
    ((r'.state = .acquiring ∨ r'.state = .inService) ∧ r'.silence ≠ .stopped) ∨
    (r.state = .acquiring ∧ r'.state = .inService ∧ r'.silence = r.silence)

/-- Each write that the steps of a telegram of the head `h` are made of keeps a property. -/
structure KeptByTelegramSteps (P : Part → Prop) (h : HeadId) : Prop where
  setHead {p : Part} {r : HeadRec} : P p → (p.head h).MayBecome r → P (p.setHead h r)
  setDecoder {p : Part} (d : DecoderRec) : P p → P (p.setDecoder h d)
  offer {p : Part} (n : Notice) : P p → P (p.offer n)
  failHead {p : Part} (c : HeadCause) : P p → P (p.failHead h c)
  wheelEvent {p : Part} (d : Dir) : P p → P (p.wheelEvent h d)
  completeRelay {p : Part} (l : LinkId) (r : RelayResult) : P p → P (p.completeRelay l r)

@[simp] theorem Part.setHead_setHead (p : Part) (h : HeadId) (r r' : HeadRec) :
    (p.setHead h r).setHead h r' = p.setHead h r' := by
  simp [Part.setHead]

namespace KeptByTelegramSteps

variable {P : Part → Prop} {h : HeadId}

/-- A change of the record that leaves its state and its silence timer. -/
theorem changeHead (kept : KeptByTelegramSteps P h) {p : Part} {f : HeadRec → HeadRec}
    (state : (f (p.head h)).state = (p.head h).state)
    (silence : (f (p.head h)).silence = (p.head h).silence) (holds : P p) : P (p.changeHead h f) :=
  kept.setHead holds (.inl ⟨state, silence⟩)

theorem restartRun (kept : KeptByTelegramSteps P h) {p : Part} (holds : P p) :
    P (p.changeHead h HeadRec.restartRun) :=
  kept.changeHead rfl rfl holds

theorem beginAcquisition (kept : KeptByTelegramSteps P h) {p : Part} (holds : P p) :
    P (p.beginAcquisition h) := by
  refine kept.offer _ ?_
  rw [Part.startSilence, Part.changeHead, Part.changeHead, Part.setHead_setHead, Part.head_setHead]
  exact kept.setHead holds (.inr (.inl ⟨.inl rfl, by simp⟩))

theorem startSilence (kept : KeptByTelegramSteps P h) {p : Part}
    (state : (p.head h).state = .acquiring ∨ (p.head h).state = .inService) (holds : P p) :
    P (p.startSilence h) :=
  kept.setHead holds (.inr (.inl ⟨state, by simp⟩))

theorem silenceStep (kept : KeptByTelegramSteps P h) {p : Part} (holds : P p) : P (p.silenceStep h) := by
  unfold Part.silenceStep
  cases state : (p.head h).state with
  | absent => exact kept.beginAcquisition holds
  | acquiring => exact kept.startSilence (.inl state) holds
  | inService => exact kept.startSilence (.inr state) holds
  | failed => exact holds

theorem restartMarkerStep (kept : KeptByTelegramSteps P h) {p : Part} (holds : P p) :
    P (p.restartMarkerStep h) := by
  unfold Part.restartMarkerStep
  cases (p.head h).state with
  | inService => exact kept.failHead _ holds
  | acquiring => exact kept.restartRun holds
  | failed | absent => exact holds

theorem deliverEntry (kept : KeptByTelegramSteps P h) {p : Part} (entry : Phase) (holds : P p) :
    P (p.deliverEntry h entry).1 := by
  have judged := kept.setDecoder ((p.decoder h).judge (p.headCfg h).rockLimit.toNat entry).1 holds
  unfold Part.deliverEntry
  dsimp only
  split
  · exact judged
  · exact kept.wheelEvent _ judged
  · exact judged
  · exact kept.offer _ judged
  · exact judged

theorem deliver (kept : KeptByTelegramSteps P h) {p : Part} (entries : List Phase) (holds : P p) :
    P (p.deliver h entries).1 := by
  induction entries generalizing p with
  | nil => exact holds
  | cons entry rest ih =>
    have delivered := kept.deliverEntry entry holds
    unfold Part.deliver
    split <;> rename_i q e <;> rw [e] at delivered
    · exact delivered
    · exact ih delivered

theorem changeListInService (kept : KeptByTelegramSteps P h) {p : Part} (t : HeadTelegram) (holds : P p) :
    P (p.changeListInService h t) := by
  have delivered := kept.deliver t.changes holds
  unfold Part.changeListInService
  split <;> rename_i e <;> rw [e] at delivered
  · exact kept.failHead _ delivered
  · split
    · exact delivered
    · exact kept.failHead _ delivered

theorem changeListStep (kept : KeptByTelegramSteps P h) {p : Part} (t : HeadTelegram) (holds : P p) :
    P (p.changeListStep h t) := by
  unfold Part.changeListStep
  cases (p.head h).state with
  | inService => exact kept.changeListInService t holds
  | acquiring =>
    refine kept.changeHead ?_ ?_ holds <;>
    · unfold HeadRec.judgeRun
      split <;> rfl
  | failed | absent => exact holds

theorem bridgedStep (kept : KeptByTelegramSteps P h) {p : Part} (missing : Nat) (t : HeadTelegram)
    (holds : P p) : P (p.bridgedStep h missing t) := by
  have offered := kept.offer (.gapBridged h missing) holds
  unfold Part.bridgedStep
  dsimp only
  cases ((p.offer (.gapBridged h missing)).head h).state with
  | inService => exact kept.changeListInService t offered
  | acquiring => exact kept.restartRun offered
  | failed | absent => exact offered

theorem sequenceLossStep (kept : KeptByTelegramSteps P h) {p : Part} (holds : P p) :
    P (p.sequenceLossStep h) := by
  unfold Part.sequenceLossStep
  cases (p.head h).state with
  | inService => exact kept.failHead _ holds
  | acquiring => exact kept.restartRun holds
  | failed | absent => exact holds

theorem healthFault (kept : KeptByTelegramSteps P h) {p : Part} (c : HeadCause) (holds : P p) :
    P (p.healthFault h c) := by
  unfold Part.healthFault
  cases (p.head h).state with
  | inService => exact kept.failHead c holds
  | acquiring => exact kept.restartRun holds
  | failed | absent => exact holds

theorem levelsStep (kept : KeptByTelegramSteps P h) {p : Part} (b : Health) (holds : P p) :
    P (p.levelsStep h b) := by
  unfold Part.levelsStep
  dsimp only
  split
  · exact kept.healthFault _ holds
  · split
    · exact kept.healthFault _ holds
    · exact holds

theorem temperatureStep (kept : KeptByTelegramSteps P h) {p : Part} (old : Option Health) (b : Health)
    (holds : P p) : P (p.temperatureStep h old b) := by
  unfold Part.temperatureStep
  dsimp only
  split_ifs
  · exact holds
  · exact kept.offer _ holds

theorem identityStep (kept : KeptByTelegramSteps P h) {p : Part} (b : Health) (holds : P p) :
    P (p.identityStep h b) := by
  unfold Part.identityStep
  split
  · have learned := kept.changeHead (f := fun r => { r with learned := some b.identity }) rfl rfl holds
    dsimp only
    split
    · exact learned
    · exact kept.offer _ learned
  · split
    · cases (p.head h).state with
      | acquiring => exact kept.changeHead rfl rfl holds
      | inService | failed | absent => exact holds
    · cases (p.head h).state with
      | acquiring | inService => exact kept.failHead _ holds
      | failed | absent => exact holds

theorem healthStep (kept : KeptByTelegramSteps P h) {p : Part} (t : HeadTelegram) (holds : P p) :
    P (p.healthStep h t) := by
  unfold Part.healthStep
  cases t.health with
  | none => exact holds
  | some b =>
    have stored := kept.changeHead (f := fun r => { r with health := some b }) rfl rfl holds
    exact kept.identityStep b (kept.temperatureStep _ b (kept.levelsStep b stored))

theorem echoStep (kept : KeptByTelegramSteps P h) {p : Part} (l : LinkId) (t : HeadTelegram) (holds : P p) :
    P (p.echoStep l t) := by
  unfold Part.echoStep Part.takeEcho
  split
  · exact holds
  · split
    · exact holds
    · split
      · exact kept.completeRelay l _ holds
      · exact holds

theorem admissionStep (kept : KeptByTelegramSteps P h) {p : Part} (holds : P p) :
    P (p.admissionStep h) := by
  unfold Part.admissionStep
  cases state : (p.head h).state with
  | acquiring =>
    dsimp only
    split
    · have admitted : P (p.changeHead h fun r => { r with state := .inService }) :=
        kept.setHead holds (.inr (.inr ⟨state, rfl, rfl⟩))
      exact kept.offer _ (kept.setDecoder _ admitted)
    · exact holds
  | inService | failed | absent => exact holds

theorem laterSteps (kept : KeptByTelegramSteps P h) {p : Part} (l : LinkId) (t : HeadTelegram)
    (holds : P p) : P (p.laterSteps l h t) := by
  have echoed := kept.echoStep l t (kept.healthStep t holds)
  exact kept.admissionStep (kept.changeHead rfl rfl echoed)

/-- A telegram of the head keeps what each write of its steps keeps, whatever its sequence. -/
theorem takeTelegram (kept : KeptByTelegramSteps P h) {p : Part} (l : LinkId) (t : HeadTelegram)
    (holds : P p) : P (p.takeTelegram l h t).1 := by
  have heard := kept.silenceStep holds
  unfold Part.takeTelegram
  dsimp only
  split
  · exact kept.laterSteps l t (kept.restartMarkerStep heard)
  · split
    · exact heard
    · exact kept.laterSteps l t (kept.changeListStep t heard)
    · exact kept.laterSteps l t (kept.bridgedStep _ t heard)
    · exact kept.laterSteps l t (kept.sequenceLossStep heard)

end KeptByTelegramSteps

/-! ## The events of a head link -/

/-- A link's record as its receiver may leave it, short of a link loss: the relay path is as it was, and the
link is in the same state or has locked (R51 to R57, R60). -/
structure LinkRec.MayReceive (k k' : LinkRec) : Prop where
  queue       : k'.queue = k.queue
  timer       : k'.timer = k.timer
  transmitter : k'.transmitter = k.transmitter
  tag         : k'.tag = k.tag
  state       : k'.state = k.state ∨ k'.state = .locked

theorem LinkRec.MayReceive.withRx (k : LinkRec) (rx : Rx) : k.MayReceive (k.withRx rx) := by
  unfold LinkRec.withRx
  cases mode : k.mode with
  | off | search => exact ⟨rfl, rfl, rfl, rfl, .inl rfl⟩
  | locked polarity old => exact ⟨rfl, rfl, rfl, rfl, .inr rfl⟩

/-- Each thing that an octet or a gap on a head link may do keeps a property. -/
structure KeptByLinkEvents (P : Part → Prop) : Prop where
  setLink {p : Part} {l : LinkId} {k : LinkRec} : P p → (p.link l).MayReceive k → P (p.setLink l k)
  offer {p : Part} (n : Notice) : P p → P (p.offer n)
  setMirrors {p : Part} (mirrors : List Mirror) :
    P p → P (p.setReport { p.report with mirrors := mirrors })
  linkLoss {p : Part} {l : LinkId} : P p → P (p.linkLoss l)
  takeTelegram {p : Part} {l : LinkId} {h : HeadId} (t : HeadTelegram) :
    P p → (p.link l).state = .locked → p.activeTable.stationMap l t.station = some h →
      P (p.takeTelegram l h t).1

namespace KeptByLinkEvents

variable {P : Part → Prop} {p : Part}

theorem badFrame (kept : KeptByLinkEvents P) (l : LinkId) (kind : BadFrame) (rx : Rx) (holds : P p) :
    P (p.badFrame l kind rx) := by
  obtain ⟨queue, timer, transmitter, tag, state⟩ := LinkRec.MayReceive.withRx (p.link l) rx
  have counted : P (p.setLink l { (p.link l).withRx rx with
      run := (p.link l).run + 1, counts := (p.link l).counts.raise kind }) :=
    kept.setLink holds ⟨queue, timer, transmitter, tag, state⟩
  unfold Part.badFrame
  dsimp only
  split
  · exact kept.linkLoss counted
  · exact counted

theorem offerMirror (kept : KeptByLinkEvents P) (l : LinkId) (octets : List Octet) (holds : P p) :
    P (p.offerMirror l octets) := by
  unfold Part.offerMirror
  split
  · exact kept.setLink holds ⟨rfl, rfl, rfl, rfl, .inl rfl⟩
  · exact kept.setMirrors _ holds

theorem mappedTelegram (kept : KeptByLinkEvents P) {l : LinkId} {h : HeadId} (t : HeadTelegram)
    (octets : List Octet) (locked : (p.link l).state = .locked)
    (mapped : p.activeTable.stationMap l t.station = some h) (holds : P p) :
    P (p.mappedTelegram l h t octets) := by
  have taken := kept.takeTelegram t holds locked mapped
  have counted : P (if (p.takeTelegram l h t).2 then
      (p.takeTelegram l h t).1.setLink l { (p.takeTelegram l h t).1.link l with
        repeats := raise16 ((p.takeTelegram l h t).1.link l).repeats }
      else (p.takeTelegram l h t).1.setLink l { (p.takeTelegram l h t).1.link l with run := 0 }) := by
    split <;> exact kept.setLink taken ⟨rfl, rfl, rfl, rfl, .inl rfl⟩
  unfold Part.mappedTelegram
  dsimp only
  split
  · exact kept.offerMirror l octets counted
  · exact counted

theorem lockedTelegram (kept : KeptByLinkEvents P) {l : LinkId} (octets : List Octet)
    (locked : (p.link l).state = .locked) (holds : P p) : P (p.lockedTelegram l octets) := by
  unfold Part.lockedTelegram
  split
  · exact kept.badFrame l _ _ holds
  · split
    · exact kept.setLink holds ⟨rfl, rfl, rfl, rfl, .inl rfl⟩
    · exact kept.mappedTelegram _ octets locked ‹_› holds

theorem lock (kept : KeptByLinkEvents P) (l : LinkId) (polarity : Polarity) (octets : List Octet)
    (holds : P p) : P (p.lock l polarity octets) := by
  have locked : P (p.setLink l { p.link l with mode := .locked polarity .wait, latch := true }) :=
    kept.setLink holds ⟨rfl, rfl, rfl, rfl, .inr rfl⟩
  exact kept.lockedTelegram octets (by simp [LinkRec.state]) (kept.offer _ locked)

theorem searchOctet (kept : KeptByLinkEvents P) {l : LinkId}
    {candidate : Option (Polarity × List Octet)} (searching : (p.link l).mode = .search candidate)
    (o : Octet) (holds : P p) : P (p.searchOctet l candidate o) := by
  have search (next : Option (Polarity × List Octet)) :
      P (p.setLink l { p.link l with mode := .search next }) :=
    kept.setLink holds ⟨rfl, rfl, rfl, rfl, .inl (by simp [LinkRec.state, searching])⟩
  unfold Part.searchOctet
  dsimp only
  split
  · split
    · exact search _
    · split
      · exact search _
      · exact holds
  · split
    · exact search _
    · exact search _
    · exact search _
    · exact kept.lock l _ _ holds

theorem lockedOctet (kept : KeptByLinkEvents P) {l : LinkId} {polarity : Polarity} {rx : Rx}
    (locked : (p.link l).mode = .locked polarity rx) (o : Octet) (holds : P p) :
    P (p.lockedOctet l rx o) := by
  have received (new : Rx) : P (p.setLink l ((p.link l).withRx new)) :=
    kept.setLink holds (.withRx _ new)
  unfold Part.lockedOctet
  dsimp only
  cases rx with
  | wait =>
    dsimp only
    split
    · exact received _
    · exact kept.badFrame l _ _ holds
  | hunt =>
    dsimp only
    split
    · exact received _
    · exact holds
  | frame octets =>
    dsimp only
    split
    · exact received _
    · exact kept.badFrame l _ _ holds
    · exact kept.badFrame l _ _ holds
    · exact kept.lockedTelegram _ (by simp [LinkRec.withRx_locked locked, LinkRec.state]) (received .wait)

theorem linkOctet (kept : KeptByLinkEvents P) (l : LinkId) (o : Octet) (holds : P p) :
    P (p.linkOctet l o) := by
  unfold Part.linkOctet
  dsimp only
  split
  · exact holds
  · cases mode : (p.link l).mode with
    | off => exact holds
    | search candidate => exact kept.searchOctet mode o holds
    | locked polarity rx => exact kept.lockedOctet mode _ holds

theorem linkCharTimeout (kept : KeptByLinkEvents P) (l : LinkId) (holds : P p) :
    P (p.linkCharTimeout l) := by
  unfold Part.linkCharTimeout
  split
  · exact kept.badFrame l _ _ holds
  · exact holds
  · exact holds
  · rename_i mode
    exact kept.setLink holds ⟨rfl, rfl, rfl, rfl, .inl (by simp [LinkRec.state, mode])⟩
  · exact holds

theorem linkQuiet (kept : KeptByLinkEvents P) (l : LinkId) (holds : P p) : P (p.linkQuiet l) := by
  have timedOut := kept.linkCharTimeout l holds
  unfold Part.linkQuiet
  dsimp only
  split
  · exact holds
  · split
    · exact kept.setLink timedOut (.withRx _ _)
    · exact timedOut
    · exact timedOut

end KeptByLinkEvents

end Sys2Proof.Machine
end

section
/-! SUPPORT. What every event but a start-up keeps. A start-up loads a table from the image (R163), of which a
law over the active and staging tables says nothing; so a property that the other events keep is followed
through a step up to a start-up, which can only be its last event. -/

namespace Sys2Proof.Machine

/-- Each kind of event of the part but the start-up sequence keeps a property; so does the start on the count
line that ends an event. -/
structure KeptUntilStartUp (P : Part → Prop) : Prop where
  link : KeptByLinkEvents P
  setPins {p : Part} (pins : Pins) : P p → P (p.setPins pins)
  fullReset {p : Part} : P p → P p.fullReset
  setCount {p : Part} (c : CountLine) : P p → P (p.setCount c)
  request : ∀ owner ∈ requestOwners, ∀ body p, P p → P (owner body p).1
  countDown {p : Part} : P p → P p.countDown
  expire {p : Part} (t : TimerId) : P p → P (p.expire t)
  relayStart {p : Part} (l : LinkId) : P p → P (p.relayStart l)
  relayEnd {p : Part} (l : LinkId) : P p → P (p.relayEnd l)
  writeCompletion {p : Part} (readBack : Option Table) : P p → P (p.writeCompletion readBack)
  endTransmission {p : Part} : P p → P p.endTransmission
  afterEvent {p : Part} : P p → P p.afterEvent

namespace KeptUntilStartUp

variable {P : Part → Prop} {p : Part}

theorem takeRequest (kept : KeptUntilStartUp P) (kind : Octet) (body : List Octet) (holds : P p) :
    P (p.takeRequest kind body (ownerOf kind)) := by
  unfold Part.takeRequest
  split
  · exact kept.setCount _ holds
  · split
    · exact kept.setCount _ (kept.request _ (ownerOf_mem kind) body p holds)
    · exact kept.setCount _ holds

/-- A property that the start-up sequence keeps too is kept by every event. -/
theorem keptByEvents (kept : KeptUntilStartUp P)
    (startUp : ∀ p : Part, P p.fullReset → P p.fullReset.startUp) : KeptByEvents P where
  setPins := kept.setPins
  fullReset := kept.fullReset
  startUp := startUp _
  linkOctet := kept.link.linkOctet
  linkCharTimeout := kept.link.linkCharTimeout
  linkQuiet := kept.link.linkQuiet
  setCountRx _ := kept.setCount _
  countBadLength := kept.setCount _
  countBadFrame _ := kept.setCount _
  takeRequest := kept.takeRequest
  countDown := kept.countDown
  expire := kept.expire
  relayStart := kept.relayStart
  relayEnd := kept.relayEnd
  writeCompletion := kept.writeCompletion
  endTransmission := kept.endTransmission
  afterEvent := kept.afterEvent

/-! ## The lines -/

theorem judgeCountTelegram (kept : KeptUntilStartUp P) (address kind : Octet) (body : List Octet)
    (holds : P p) : P (p.judgeCountTelegram address kind body) := by
  unfold Part.judgeCountTelegram
  split
  · exact kept.takeRequest kind body holds
  · exact holds

theorem countOctet (kept : KeptUntilStartUp P) (o : Octet) (holds : P p) : P (p.countOctet o) := by
  unfold Part.countOctet
  split
  · split <;> exact kept.setCount _ holds
  · split
    · exact kept.setCount _ holds
    · exact holds
  · dsimp only
    split
    · exact kept.setCount _ holds
    · exact kept.setCount _ holds
    · exact kept.setCount _ holds
    · exact kept.judgeCountTelegram _ _ _ (kept.setCount _ holds)

theorem countCharTimeout (kept : KeptUntilStartUp P) (holds : P p) : P p.countCharTimeout := by
  unfold Part.countCharTimeout
  split
  · exact kept.setCount _ holds
  · exact holds
  · exact holds

theorem lineOctet (kept : KeptUntilStartUp P) (line : Line) (o : Octet) (holds : P p) :
    P (p.lineOctet line o) := by
  cases line with
  | headLink l => exact kept.link.linkOctet l o holds
  | countLine => exact kept.countOctet o holds

theorem lineOctets (kept : KeptUntilStartUp P) (line : Line) (octets : List Octet) (holds : P p) :
    P (p.lineOctets line octets) :=
  Part.lineOctets_inv P line (fun _ o => kept.lineOctet line o) (fun _ => kept.afterEvent) octets holds

theorem lineCharTimeout (kept : KeptUntilStartUp P) (line : Line) (holds : P p) :
    P (p.lineCharTimeout line) := by
  cases line with
  | headLink l =>
    show P (p.linkCharWait l)
    unfold Part.linkCharWait
    split
    · exact holds
    · exact kept.link.linkCharTimeout l holds
  | countLine => exact kept.countCharTimeout holds

theorem lineQuiet (kept : KeptUntilStartUp P) (line : Line) (holds : P p) : P (p.lineQuiet line) := by
  cases line with
  | headLink l => exact kept.link.linkQuiet l holds
  | countLine => exact kept.setCount _ (kept.countCharTimeout holds)

theorem countTelegramArrives (kept : KeptUntilStartUp P) (body : List Octet) {f : Part → Part}
    (judged : ∀ {q}, P q → P (f q)) (holds : P p) : P (p.countTelegramArrives body f) := by
  unfold Part.countTelegramArrives
  split
  · exact judged (kept.setCount _ holds)
  · exact kept.setCount _ holds

theorem rateChange (kept : KeptUntilStartUp P) (holds : P p) : P p.rateChange :=
  kept.countCharTimeout (foldl_inv P _ (fun _ l => kept.link.linkCharTimeout l) _ p holds)

/-! ## The time base -/

theorem takeExpiry (kept : KeptUntilStartUp P) (t : TimerId) (holds : P p) : P (p.takeExpiry t) := by
  unfold Part.takeExpiry Part.takeDue
  split
  · exact kept.afterEvent (kept.expire t holds)
  · exact holds

theorem onItsOwn (kept : KeptUntilStartUp P) (holds : P p) : P p.onItsOwn := by
  unfold Part.onItsOwn
  split
  · exact kept.relayStart _ holds
  · rw [Part.tick_eq_foldl]
    exact foldl_inv P _ (fun _ t => kept.takeExpiry t) _ _ (kept.countDown holds)

/-! ## Commands and steps -/

theorem next (kept : KeptUntilStartUp P) {s t : State} (holds : P p) (ran : s.next p = .next t) :
    P t.toPart := by
  cases ran
  exact kept.afterEvent holds

end KeptUntilStartUp

/-- The part as an event that ends in the start-up sequence leaves it (R163, R155). -/
def Part.JustStartedUp (p : Part) : Prop := ∃ q : Part, p = q.fullReset.startUp.afterEvent

namespace KeptUntilStartUp

variable {P : Part → Prop} {p : Part}

/-- A part that leaves its reset starts up; one that another cause still holds is as it was. -/
theorem next_leaveReset (kept : KeptUntilStartUp P) {s t : State} (holds : P p)
    (ran : s.next p.leaveReset = .next t) : P t.toPart ∨ t.toPart.JustStartedUp := by
  unfold Part.leaveReset at ran
  split at ran
  · exact .inl (kept.next holds ran)
  · cases ran
    exact .inr ⟨p, rfl⟩

theorem next_changeAddress (kept : KeptUntilStartUp P) {s t : State} (address : BitVec 4) (holds : P p)
    (ran : s.next (p.changeAddress address) = .next t) : P t.toPart ∨ t.toPart.JustStartedUp := by
  have pinned : P (p.setPins { p.pins with address := address }) := kept.setPins _ holds
  unfold Part.changeAddress at ran
  dsimp only at ran
  split at ran
  · exact .inl (kept.next (kept.fullReset pinned) ran)
  · split at ran
    · exact kept.next_leaveReset pinned ran
    · exact .inl (kept.next pinned ran)

/-- Every command keeps the property, or starts the part up. -/
theorem exec (kept : KeptUntilStartUp P) {s t : State} (i : Instr) (holds : P s.toPart)
    (ran : exec i s = .next t) : P t.toPart ∨ t.toPart.JustStartedUp := by
  have awake {f : Part → Part} (keeps : ∀ {q}, P q → P (f q))
      (ran : s.next (s.toPart.unlessReset f) = .next t) : P t.toPart ∨ t.toPart.JustStartedUp :=
    .inl (kept.next (KeptByEvents.unlessReset keeps holds) ran)
  have request (kind : Octet) (body : List Octet)
      (ran : s.next (s.toPart.unlessReset fun p => p.requestArrives kind body (ownerOf kind)) = .next t) :
      P t.toPart ∨ t.toPart.JustStartedUp :=
    awake (kept.countTelegramArrives body (kept.takeRequest kind body)) ran
  cases i with
  | fullReset cause => exact .inl (kept.next (kept.fullReset (kept.setPins _ holds)) ran)
  | addressStrapChange address => exact kept.next_changeAddress address holds ran
  | fullResetEnd event =>
    simp only [Machine.exec, execFullResetEnd] at ran
    split at ran
    · exact kept.next_leaveReset (kept.setPins _ holds) ran
    · exact .inl (kept.next holds ran)
  | rateStrapChange rate =>
    refine .inl (kept.next ?_ ran)
    split
    · exact holds
    · exact KeptByEvents.unlessReset kept.rateChange (kept.setPins _ holds)
  | syncMiss line octet => exact awake (kept.lineOctet line octet) ran
  | lengthBadFrame line octets | crcBadFrame line octets => exact awake (kept.lineOctets line octets) ran
  | headStatusTelegram l octets => exact awake (kept.lineOctets (.headLink l) octets) ran
  | charTimeout line octets =>
    exact awake (fun q => kept.lineCharTimeout line (kept.lineOctets line octets q)) ran
  | quietInterval line => exact awake (kept.lineQuiet line) ran
  | silenceExpiry h => exact awake (kept.expire (.silence h)) ran
  | confirmExpiry i => exact awake (kept.expire (.confirm i)) ran
  | relayTimerExpiry l => exact awake (kept.expire (.relay l)) ran
  | holdLimitExpiry => exact awake (kept.expire .holdLimit) ran
  | reportCycleExpiry => exact awake (kept.expire .reportCycle) ran
  | storeTimerExpiry => exact awake (kept.expire .store) ran
  | relayTransmissionStart l => exact awake (kept.relayStart l) ran
  | relayTransmissionEnd l => exact awake (kept.relayEnd l) ran
  | writeCompletion readBack => exact awake (kept.writeCompletion readBack) ran
  | transmissionStart => exact .inl (kept.next holds ran)
  | transmissionEnd => exact awake kept.endTransmission ran
  | telegramAddressedElsewhere address kind body =>
    exact awake (kept.countTelegramArrives body (kept.judgeCountTelegram address kind body)) ran
  | requestOfUnknownKind kind body => exact request kind body ran
  | statusQuery body | sectionQuery body | start body | halt body | sectionReset body | headQuery body
  | headRelease body | headAdopt body | linkQuery body | headRelay body | tableWrite body
  | tableRead body | tableCopy body | tableCheck body | tableActivate body | store body
  | commission body | eraseStore body | hold body | proceed body => exact request _ body ran

/-- Every step keeps the property, or starts the part up. -/
theorem step (kept : KeptUntilStartUp P) {s t : State} (holds : P s.toPart) (ran : step s = .next t) :
    P t.toPart ∨ t.toPart.JustStartedUp := by
  unfold Machine.step at ran
  cases waiting : s.pending with
  | nil =>
    rw [waiting] at ran
    exact .inl (kept.next (KeptByEvents.unlessReset kept.onItsOwn holds) ran)
  | cons c rest =>
    rw [waiting] at ran
    exact kept.exec (s := { s with pending := rest }) c holds ran

end KeptUntilStartUp

end Sys2Proof.Machine
end

section
/-! SUPPORT. The timers beside their owners (R25, R100, R156, R157, R159): each record's own law, the writes
that keep it, and that every event of the part is made of such writes. -/

namespace Sys2Proof.Machine

/-! ## The law of each record -/

/-- The silence timer runs exactly in ACQUIRING and IN_SERVICE (R25). -/
def HeadRec.SilenceSound (r : HeadRec) : Prop :=
  r.silence ≠ .stopped ↔ r.state = .acquiring ∨ r.state = .inService

/-- The confirm timer runs exactly in CLEARING (R100). -/
def SectionRec.ConfirmSound (r : SectionRec) : Prop := r.confirm ≠ .stopped ↔ r.state = .clearing

/-- The hold-limit timer runs exactly while the line is held (R156, R157). -/
def ReportUnit.HoldSound (r : ReportUnit) : Prop := r.holdTimer ≠ .stopped ↔ r.held = true

/-- The store timer runs exactly while an operation is in flight, with the image INVALID and WRITING (R159). -/
def ImageStore.OpSound (i : ImageStore) : Prop :=
  (i.op ≠ .none → i.state = .invalid ∧ i.image.marker = .writing) ∧ (i.timer ≠ .stopped ↔ i.op ≠ .none)

theorem StoreOp.kind_eq_none_iff (op : StoreOp) : op.kind = Option.none ↔ op = .none := by
  cases op <;> simp [StoreOp.kind]

theorem Timer.countDown_ne_stopped (t : Timer) : t.countDown ≠ .stopped ↔ t ≠ .stopped := by
  cases t <;> simp [Timer.countDown]

theorem HeadRec.reset_silenceSound : HeadRec.reset.SilenceSound := by
  simp [HeadRec.SilenceSound, HeadRec.reset]

theorem HeadRec.fail_silenceSound (r : HeadRec) (c : HeadCause) : (r.fail c).SilenceSound := by
  simp [HeadRec.SilenceSound, HeadRec.fail]

theorem HeadRec.cleared_silenceSound (r : HeadRec) : r.cleared.SilenceSound := by
  simp [HeadRec.SilenceSound, HeadRec.cleared, HeadRec.reset]

/-- What a step of a telegram may make of a record keeps its law. -/
theorem HeadRec.SilenceSound.mayBecome {r r' : HeadRec} (sound : r.SilenceSound) (may : r.MayBecome r') :
    r'.SilenceSound := by
  unfold HeadRec.SilenceSound at *
  rcases may with ⟨state, silence⟩ | ⟨state, running⟩ | ⟨before, state, silence⟩
  · rwa [state, silence]
  · simpa [running] using state
  · simpa [silence, state, before] using sound

theorem SectionRec.disturb_confirmSound (r : SectionRec) (c : Cause) : (r.disturb c).ConfirmSound := by
  simp [SectionRec.ConfirmSound, SectionRec.disturb]

/-- The count falls to 0: the timer starts with the entry into CLEARING (R97, R100). -/
theorem SectionRec.emptied_confirmSound (cfg : SectionRecord) {r : SectionRec} (sound : r.ConfirmSound)
    (state : r.state ≠ .clearing) : (r.emptied cfg).ConfirmSound := by
  unfold SectionRec.ConfirmSound at *
  unfold SectionRec.emptied
  split
  · simp
  · simpa [state] using sound

theorem SectionRec.inward_confirmSound (cfg : SectionRecord) {r : SectionRec} (sound : r.ConfirmSound) :
    (r.inward cfg).1.ConfirmSound := by
  unfold SectionRec.inward
  cases state : r.state with
  | clear => simpa [SectionRec.ConfirmSound, state] using sound
  | clearing => simp [SectionRec.ConfirmSound]
  | occupied | restoring =>
    dsimp only
    split
    · simpa [SectionRec.ConfirmSound, state] using sound
    · exact r.disturb_confirmSound _
  | disturbed | absent => exact sound

theorem SectionRec.outward_confirmSound (cfg : SectionRecord) {r : SectionRec} (sound : r.ConfirmSound) :
    (r.outward cfg).1.ConfirmSound := by
  unfold SectionRec.outward
  cases state : r.state with
  | clear | clearing => exact r.disturb_confirmSound _
  | occupied =>
    dsimp only
    split
    · simpa [SectionRec.ConfirmSound, state] using sound
    · exact SectionRec.emptied_confirmSound cfg sound (by simp [state])
  | restoring =>
    dsimp only
    split
    · simpa [SectionRec.ConfirmSound, state] using sound
    · split
      · exact SectionRec.emptied_confirmSound cfg sound (by simp [state])
      · simpa [SectionRec.ConfirmSound, state] using sound
  | disturbed | absent => exact sound

theorem SectionRec.wheel_confirmSound (cfg : SectionRecord) (inward : Bool) {r : SectionRec}
    (sound : r.ConfirmSound) : (r.wheel cfg inward).1.ConfirmSound := by
  unfold SectionRec.wheel
  split
  · exact SectionRec.inward_confirmSound cfg sound
  · exact SectionRec.outward_confirmSound cfg sound

/-- The hold state and its timer are as they were. -/
def ReportUnit.SameHold (r r' : ReportUnit) : Prop := r'.held = r.held ∧ r'.holdTimer = r.holdTimer

theorem ReportUnit.HoldSound.same {r r' : ReportUnit} (sound : r.HoldSound) (same : r.SameHold r') :
    r'.HoldSound := by
  obtain ⟨held, timer⟩ := same
  unfold ReportUnit.HoldSound at *
  rwa [held, timer]

theorem ReportUnit.offer_sameHold (r : ReportUnit) (n : Notice) : r.SameHold (r.offer n) := by
  simp [ReportUnit.SameHold]

theorem ReportUnit.mark_sameHold (r : ReportUnit) (i : SectionId) : r.SameHold (r.mark i) := by
  simp [ReportUnit.SameHold]

theorem ImageStore.accept_opSound (i : ImageStore) {op : StoreOp} (some : op ≠ .none) :
    (i.accept op).OpSound := by
  simp [ImageStore.OpSound, ImageStore.accept, some]

theorem ImageStore.finish_opSound (image : Image) (state : ImageState) :
    (ImageStore.finish image state).OpSound := by
  simp [ImageStore.OpSound, ImageStore.finish]

/-! ## Writes of one record -/

/-- The law of every record together. -/
theorem Part.timersSound_iff (p : Part) : p.TimersSound ↔
    (∀ h, (p.head h).SilenceSound) ∧ (∀ i, (p.sec i).ConfirmSound) ∧ p.report.HoldSound ∧
      p.image.OpSound :=
  ⟨fun ⟨silence, confirm, hold, store⟩ => ⟨silence, confirm, hold, store⟩,
    fun ⟨silence, confirm, hold, store⟩ => ⟨silence, confirm, hold, store⟩⟩

namespace Part.TimersSound

variable {p q : Part}

theorem of_same (sound : p.TimersSound) (heads : q.heads = p.heads) (sections : q.sections = p.sections)
    (hold : p.report.SameHold q.report) (image : q.image = p.image) : q.TimersSound := by
  obtain ⟨silences, confirms, held, stored⟩ := p.timersSound_iff.1 sound
  refine q.timersSound_iff.2 ⟨fun h => ?_, fun i => ?_, held.same hold, ?_⟩
  · rw [Part.head, heads]
    exact silences h
  · rw [Part.sec, sections]
    exact confirms i
  · rwa [image]

theorem setHead (sound : p.TimersSound) {h : HeadId} {r : HeadRec} (record : r.SilenceSound) :
    (p.setHead h r).TimersSound := by
  refine ⟨fun k => ?_, sound.confirm, sound.hold, sound.store⟩
  rw [Part.head_setHead_eq]
  split
  · exact record
  · exact sound.silence k

theorem setSec (sound : p.TimersSound) {i : SectionId} {r : SectionRec} (record : r.ConfirmSound) :
    (p.setSec i r).TimersSound := by
  refine ⟨sound.silence, fun j => ?_, sound.hold, sound.store⟩
  rw [Part.sec_setSec_eq]
  split
  · exact record
  · exact sound.confirm j

theorem setReport (sound : p.TimersSound) {r : ReportUnit} (record : r.HoldSound) :
    (p.setReport r).TimersSound :=
  ⟨sound.silence, sound.confirm, record, sound.store⟩

theorem setImage (sound : p.TimersSound) {i : ImageStore} (record : i.OpSound) :
    (p.setImage i).TimersSound :=
  ⟨sound.silence, sound.confirm, sound.hold, record⟩

theorem sameHold (sound : p.TimersSound) {r : ReportUnit} (same : p.report.SameHold r) :
    (p.setReport r).TimersSound :=
  sound.setReport (ReportUnit.HoldSound.same sound.hold same)

theorem setLink (sound : p.TimersSound) (l : LinkId) (k : LinkRec) : (p.setLink l k).TimersSound :=
  sound.of_same rfl rfl ⟨rfl, rfl⟩ rfl

theorem setDecoder (sound : p.TimersSound) (h : HeadId) (d : DecoderRec) :
    (p.setDecoder h d).TimersSound :=
  sound.of_same rfl rfl ⟨rfl, rfl⟩ rfl

theorem setTables (sound : p.TimersSound) (t : TableManager) : (p.setTables t).TimersSound :=
  sound.of_same rfl rfl ⟨rfl, rfl⟩ rfl

theorem setEvaluator (sound : p.TimersSound) (e : EvaluatorState) : (p.setEvaluator e).TimersSound :=
  sound.of_same rfl rfl ⟨rfl, rfl⟩ rfl

theorem offer (sound : p.TimersSound) (n : Notice) : (p.offer n).TimersSound :=
  sound.sameHold (p.report.offer_sameHold n)

theorem mark (sound : p.TimersSound) (i : SectionId) : (p.mark i).TimersSound :=
  sound.sameHold (p.report.mark_sameHold i)

/-! ## Sections, heads and relay queues -/

theorem disturb (sound : p.TimersSound) (i : SectionId) (c : Cause) : (p.disturb i c).TimersSound :=
  (sound.setSec (SectionRec.disturb_confirmSound _ c)).mark i

theorem disturbUnlessDisturbed (sound : p.TimersSound) (i : SectionId) (c : Cause) :
    (p.disturbUnlessDisturbed i c).TimersSound := by
  unfold Part.disturbUnlessDisturbed
  split
  · exact sound
  · exact sound.disturb i c

theorem outOfService (sound : p.TimersSound) (h : HeadId) (c : HeadCause) :
    (p.outOfService h c).TimersSound :=
  foldl_inv Part.TimersSound _ (fun _ item sound => sound.disturbUnlessDisturbed item.1 _) _ p sound

theorem failHead (sound : p.TimersSound) (h : HeadId) (c : HeadCause) : (p.failHead h c).TimersSound := by
  have failed : ((p.setHead h ((p.head h).fail c)).offerHeadState h).TimersSound :=
    (sound.setHead (HeadRec.fail_silenceSound _ c)).offer _
  unfold Part.failHead
  dsimp only
  split
  · exact (failed.setDecoder h _).outOfService h c
  · exact failed

theorem applyWheel (sound : p.TimersSound) (i : SectionId) (inward : Bool) :
    (p.applyWheel i inward).TimersSound := by
  have moved : (p.setSec i ((p.sec i).wheel (p.sectionCfg i) inward).1).TimersSound :=
    sound.setSec (SectionRec.wheel_confirmSound _ _ (sound.confirm i))
  unfold Part.applyWheel
  dsimp only
  split
  · exact moved.mark i
  · exact moved

theorem wheelEvent (sound : p.TimersSound) (h : HeadId) (d : Dir) : (p.wheelEvent h d).TimersSound := by
  unfold Part.wheelEvent
  split
  · exact foldl_inv Part.TimersSound _ (fun _ item sound => sound.applyWheel item.1 _) _ p sound
  · exact sound

theorem completeRelay (sound : p.TimersSound) (l : LinkId) (r : RelayResult) :
    (p.completeRelay l r).TimersSound := by
  unfold Part.completeRelay
  split
  · exact sound.setLink l _
  · exact (sound.setLink l _).offer _

theorem offerRelayResults (sound : p.TimersSound) (l : LinkId) (r : RelayResult) (cs : List RelayCommand) :
    (p.offerRelayResults l r cs).TimersSound := by
  induction cs generalizing p with
  | nil => exact sound
  | cons c cs ih => exact ih (sound.offer _)

theorem cancelRelays (sound : p.TimersSound) (l : LinkId) (picked : RelayCommand → Bool) :
    (p.cancelRelays l picked).TimersSound :=
  (sound.setLink l _).offerRelayResults l _ _

/-! ## The head links -/

theorem keptByTelegramSteps (h : HeadId) : KeptByTelegramSteps Part.TimersSound h where
  setHead sound may := sound.setHead (HeadRec.SilenceSound.mayBecome (sound.silence h) may)
  setDecoder d sound := sound.setDecoder h d
  offer n sound := sound.offer n
  failHead c sound := sound.failHead h c
  wheelEvent d sound := sound.wheelEvent h d
  completeRelay l r sound := sound.completeRelay l r

theorem loseHead (sound : p.TimersSound) (h : HeadId) : (p.loseHead h).TimersSound := by
  unfold Part.loseHead
  cases (p.head h).state with
  | acquiring | inService => exact sound.failHead h _
  | absent | failed => exact sound

theorem linkLoss (sound : p.TimersSound) (l : LinkId) : (p.linkLoss l).TimersSound := by
  have lost := foldl_inv Part.TimersSound (fun q h => q.loseHead h) (fun _ h sound => sound.loseHead h)
    (p.activeTable.headsOfLink l) _ ((sound.setLink l { (p.link l).toSearch with latch := true }).offer
      (.linkState l .search (p.link l).polarityHeld))
  exact lost.cancelRelays l _

theorem keptByLinkEvents : KeptByLinkEvents Part.TimersSound where
  setLink sound _ := sound.setLink _ _
  offer n sound := sound.offer n
  setMirrors _ sound := sound.sameHold ⟨rfl, rfl⟩
  linkLoss sound := sound.linkLoss _
  takeTelegram t sound _ _ := (keptByTelegramSteps _).takeTelegram _ t sound

/-! ## Requests -/

theorem haltRequest (sound : p.TimersSound) (body : List Octet) : (haltRequest body p).1.TimersSound := by
  unfold Machine.haltRequest
  split
  · exact foldl_inv Part.TimersSound _ (fun _ i sound => sound.disturbUnlessDisturbed i _) _ _
      (sound.setEvaluator _)
  · exact sound

/-- A section that is reset was DISTURBED, so its timer was stopped and stays so (R114, R115). -/
theorem sectionResetRequest (sound : p.TimersSound) (body : List Octet) :
    (sectionResetRequest body p).1.TimersSound := by
  have reset {i : SectionId} (disturbed : (p.sec i).state = .disturbed) {r : SectionRec}
      (confirm : r.confirm = (p.sec i).confirm) (state : r.state ≠ .clearing) :
      ((p.setSec i r).mark i).TimersSound := by
    refine (sound.setSec ?_).mark i
    have stopped := sound.confirm i
    unfold SectionRec.ConfirmSound
    simpa [confirm, state, disturbed] using stopped
  unfold Machine.sectionResetRequest
  dsimp only
  split
  · exact sound
  · split
    · exact sound
    · split
      · exact sound
      · split
        · exact sound
        · rename_i notDisturbed
          have disturbed := not_not.1 notDisturbed
          split
          · exact sound
          · split
            · exact sound
            · split
              · exact reset disturbed rfl (by simp)
              · split
                · exact sound
                · exact reset disturbed rfl (by simp)

theorem headReleaseRequest (sound : p.TimersSound) (body : List Octet) :
    (headReleaseRequest body p).1.TimersSound := by
  unfold Machine.headReleaseRequest
  split
  · exact sound
  · rename_i h _
    split
    · exact sound
    · split
      · exact sound
      · rename_i failed
        have stopped := sound.silence h
        exact (sound.setHead (by simpa [HeadRec.SilenceSound, not_not.1 failed] using stopped)).offer _

/-! ## TABLE ACTIVATE -/

theorem activateSection (sound : p.TimersSound) (old new : Table) (i : SectionId) :
    (p.activateSection old new i).TimersSound := by
  unfold Part.activateSection
  split
  · exact sound.disturb i _
  · exact (sound.setSec (by simp [SectionRec.ConfirmSound, SectionRec.appearing])).disturb i _
  · exact (sound.setSec (by simp [SectionRec.ConfirmSound, SectionRec.gone])).mark i
  · exact sound
  · exact sound

theorem activateHeads (sound : p.TimersSound) (old new : Table) : (p.activateHeads old new).TimersSound := by
  refine foldl_inv Part.TimersSound _ (fun q h sound => ?_) _ p sound
  split
  · exact (sound.setHead (HeadRec.cleared_silenceSound _)).setDecoder h _
  · exact sound

theorem activateLinks (sound : p.TimersSound) (old new : Table) : (p.activateLinks old new).TimersSound :=
  sound.of_same (by simp) (by simp) (by simp [ReportUnit.SameHold]) (by simp)

theorem activateRest (sound : p.TimersSound) (new : ActiveTable) (disturbed : Nat) :
    (p.activateRest new disturbed).TimersSound := by
  unfold Part.activateRest
  dsimp only
  split
  · have started : (p.setReport { p.report with
        cycleTimer := .running new.table.global.reportCycle.toNat }).TimersSound :=
      sound.sameHold ⟨rfl, rfl⟩
    exact (started.setEvaluator _).offer _
  · exact sound.offer _

theorem activateRelays (sound : p.TimersSound) (old new : Table) : (p.activateRelays old new).TimersSound :=
  foldl_inv Part.TimersSound _ (fun _ l sound => sound.cancelRelays l _) _ p sound

theorem activateSections (sound : p.TimersSound) (old new : Table) :
    (p.activateSections old new).TimersSound :=
  foldl_inv Part.TimersSound _ (fun _ i sound => sound.activateSection old new i) _ p sound

theorem activate (sound : p.TimersSound) (crc : Crc) : (p.activate crc).TimersSound :=
  (((((sound.setTables _).activateHeads _ _).activateRelays _ _).activateSections _ _).activateLinks _
    _).activateRest _ _

theorem tableActivateRequest (sound : p.TimersSound) (body : List Octet) :
    (tableActivateRequest body p).1.TimersSound := by
  unfold Machine.tableActivateRequest
  split
  · exact sound
  · split
    · exact sound.activate _
    · exact sound

/-! ## The image store and the hold -/

theorem storeRequest (sound : p.TimersSound) (body : List Octet) : (storeRequest body p).1.TimersSound := by
  unfold Machine.storeRequest
  split_ifs
  · exact sound
  · exact sound
  · exact sound
  · split
    · exact sound
    · exact sound.setImage (p.image.accept_opSound (by simp))

theorem commissionRequest (sound : p.TimersSound) (body : List Octet) :
    (commissionRequest body p).1.TimersSound := by
  unfold Machine.commissionRequest
  split_ifs
  · exact sound
  · exact sound
  · exact sound
  · exact sound.setImage (p.image.accept_opSound (by simp))

theorem eraseStoreRequest (sound : p.TimersSound) (body : List Octet) :
    (eraseStoreRequest body p).1.TimersSound := by
  unfold Machine.eraseStoreRequest
  split
  · exact sound
  · exact sound.setImage (p.image.accept_opSound (by simp))

theorem proceedRequest (sound : p.TimersSound) (body : List Octet) :
    (proceedRequest body p).1.TimersSound := by
  unfold Machine.proceedRequest
  split
  · exact sound.setReport (by simp [ReportUnit.HoldSound])
  · exact sound

/-- A request of any owner: those that touch a timer or its owner by their own lemmas, every other because it
touches neither. -/
theorem request : ∀ owner ∈ requestOwners, ∀ body p, p.TimersSound → (owner body p).1.TimersSound := by
  have plain {owner : List Octet → Part → Part × Answer}
      (kept : ∀ body p, (owner body p).1.heads = p.heads ∧ (owner body p).1.sections = p.sections ∧
        (owner body p).1.report = p.report ∧ (owner body p).1.image = p.image) :
      ∀ body p, p.TimersSound → (owner body p).1.TimersSound := by
    intro body p sound
    obtain ⟨heads, sections, report, image⟩ := kept body p
    exact sound.of_same heads sections (by rw [report]; exact ⟨rfl, rfl⟩) image
  simp only [requestOwners, List.forall_mem_cons]
  refine ⟨plain ?_, plain ?_, plain ?_, fun body _ sound => sound.haltRequest body,
    fun body _ sound => sound.sectionResetRequest body, plain ?_,
    fun body _ sound => sound.headReleaseRequest body, plain ?_, plain ?_, plain ?_, plain ?_, plain ?_,
    plain ?_, plain ?_, fun body _ sound => sound.tableActivateRequest body,
    fun body _ sound => sound.storeRequest body, fun body _ sound => sound.commissionRequest body,
    fun body _ sound => sound.eraseStoreRequest body,
    fun _ _ sound => sound.setReport (by simp [ReportUnit.HoldSound]),
    fun body _ sound => sound.proceedRequest body, plain ?_, List.forall_mem_nil _⟩
  all_goals
    intro body p
    simp only [statusQueryRequest, sectionQueryRequest, startRequest, headQueryRequest, headAdoptRequest,
      linkQueryRequest, headRelayRequest, tableWriteRequest, tableReadRequest, tableCopyRequest,
      tableCheckRequest, noOwner]
    (repeat' split) <;> simp

/-! ## Expiries and the store's completion -/

theorem silenceExpiry (sound : p.TimersSound) (h : HeadId) : (p.silenceExpiry h).TimersSound := by
  unfold Part.silenceExpiry
  split
  · exact sound
  · cases state : (p.head h).state with
    | acquiring => exact (sound.setHead (by simp [HeadRec.SilenceSound])).offer _
    | inService => exact sound.failHead h _
    | failed | absent => exact sound.setHead (by simp [HeadRec.SilenceSound, state])

theorem confirmExpiry (sound : p.TimersSound) (i : SectionId) : (p.confirmExpiry i).TimersSound := by
  unfold Part.confirmExpiry
  dsimp only
  split
  · exact sound
  · split
    · exact (sound.setSec (by simp [SectionRec.ConfirmSound])).mark i
    · rename_i state
      exact sound.setSec (by simpa [SectionRec.ConfirmSound] using state)

theorem relayExpiry (sound : p.TimersSound) (l : LinkId) : (p.relayExpiry l).TimersSound := by
  unfold Part.relayExpiry
  split
  · exact sound
  · exact sound.completeRelay l _

theorem holdExpiry (sound : p.TimersSound) : p.holdExpiry.TimersSound := by
  unfold Part.holdExpiry
  split
  · exact sound
  · exact sound.setReport (by simp [ReportUnit.HoldSound])

theorem cycleExpiry (sound : p.TimersSound) : p.cycleExpiry.TimersSound := by
  unfold Part.cycleExpiry
  split
  · exact sound
  · exact (foldl_inv Part.TimersSound _ (fun _ i sound => sound.mark i) _ p sound).sameHold ⟨rfl, rfl⟩

theorem finishStore (sound : p.TimersSound) (kind : StoreKind) (result : StoreResult) (image : Image)
    (state : ImageState) (crc : Option Crc) : (p.finishStore kind result image state crc).TimersSound :=
  (sound.setImage (ImageStore.finish_opSound image state)).offer _

/-- A store timer that runs has its operation in flight, which its expiry abandons (R159). -/
theorem storeExpiry (sound : p.TimersSound) : p.storeExpiry.TimersSound := by
  unfold Part.storeExpiry
  split
  · exact sound
  · rename_i running
    split
    · rename_i idle
      obtain ⟨-, runs⟩ := sound.store
      exact absurd ((StoreOp.kind_eq_none_iff _).1 idle) (runs.1 (by simp [running]))
    · exact sound.finishStore _ _ _ _ _

theorem expire (sound : p.TimersSound) (t : TimerId) : (p.expire t).TimersSound := by
  cases t with
  | silence h => exact sound.silenceExpiry h
  | confirm i => exact sound.confirmExpiry i
  | relay l => exact sound.relayExpiry l
  | holdLimit => exact sound.holdExpiry
  | reportCycle => exact sound.cycleExpiry
  | store => exact sound.storeExpiry

theorem writeCompletion (sound : p.TimersSound) (readBack : Option Table) :
    (p.writeCompletion readBack).TimersSound := by
  have verify (kind : StoreKind) (written : ImageBody) (read : Table) (marker : Marker)
      (state : ImageState) : (p.verify kind written read marker state).TimersSound := by
    unfold Part.verify
    split <;> exact sound.finishStore _ _ _ _ _
  unfold Part.writeCompletion
  dsimp only
  split
  · exact sound
  · exact verify _ _ _ _ _
  · exact verify _ _ _ _ _
  · exact sound.finishStore _ _ _ _ _

/-- A millisecond stops no timer and starts none. -/
theorem countDown (sound : p.TimersSound) : p.countDown.TimersSound := by
  obtain ⟨silences, confirms, hold, store⟩ := p.timersSound_iff.1 sound
  refine p.countDown.timersSound_iff.2 ⟨fun h => ?_, fun i => ?_, ?_, store.1, ?_⟩
  · rw [Part.countDown_head, HeadRec.SilenceSound, Timer.countDown_ne_stopped]
    exact silences h
  · rw [Part.countDown_sec, SectionRec.ConfirmSound, Timer.countDown_ne_stopped]
    exact confirms i
  · exact (Timer.countDown_ne_stopped _).trans hold
  · exact (Timer.countDown_ne_stopped _).trans store.2

/-! ## Relay telegrams and the count line's transmitter -/

theorem relayStart (sound : p.TimersSound) (l : LinkId) : (p.relayStart l).TimersSound :=
  sound.of_same (by simp) (by simp) (by simp [ReportUnit.SameHold]) (by simp)

theorem relaySent (sound : p.TimersSound) (l : LinkId) : (p.relaySent l).TimersSound := by
  unfold Part.relaySent
  dsimp only
  split
  · exact sound
  · split
    · split
      · exact sound.setLink l _
      · exact sound.completeRelay l _
    · exact sound

theorem relayEnd (sound : p.TimersSound) (l : LinkId) : (p.relayEnd l).TimersSound := by
  unfold Part.relayEnd
  dsimp only
  split
  · exact sound
  · exact (sound.setLink l _).relaySent l

theorem transmit (sound : p.TimersSound) (kind : UpKind) (octet : Octet) (body : List Octet) :
    (p.transmit kind octet body).TimersSound :=
  sound.sameHold ⟨rfl, rfl⟩

theorem sendReport (sound : p.TimersSound) : p.sendReport.TimersSound := by
  have read := foldl_inv Part.TimersSound (fun q i => q.readLatch i)
    (fun q i sound => sound.setSec (sound.confirm i)) (p.report.queue.take reportEntries) p sound
  have dequeued := read.sameHold (r := { Part.report _ with
    queue := p.report.queue.drop reportEntries }) ⟨rfl, rfl⟩
  exact dequeued.transmit _ _ _

theorem sendNotices (sound : p.TimersSound) : p.sendNotices.TimersSound :=
  sound.sameHold ⟨rfl, rfl⟩

theorem sendMirror (sound : p.TimersSound) (m : Mirror) (rest : List Mirror) :
    (p.sendMirror m rest).TimersSound :=
  sound.sameHold ⟨rfl, rfl⟩

theorem choose (sound : p.TimersSound) : p.choose.TimersSound := by
  unfold Part.choose Part.chooseUnheld
  split
  · exact sound.transmit _ _ _
  · split
    · exact sound
    · split
      · exact sound.sendReport
      · split
        · exact sound.sendNotices
        · split
          · exact sound.sendMirror _ _
          · exact sound

theorem afterEvent (sound : p.TimersSound) : p.afterEvent.TimersSound := by
  refine KeptByEvents.unlessReset (P := Part.TimersSound) (fun {q} sound => ?_) sound
  unfold Part.startTransmission
  split
  · exact sound
  · exact sound.choose

theorem endTransmission (sound : p.TimersSound) : p.endTransmission.TimersSound := by
  unfold Part.endTransmission
  split
  · exact sound
  · have settled : (p.setReport { p.report.settleFlags with transmitter := none }).TimersSound :=
      sound.sameHold ⟨rfl, rfl⟩
    dsimp only
    split
    · exact settled.of_same rfl rfl ⟨rfl, rfl⟩ rfl
    · exact settled

/-! ## Full reset, start-up and every event -/

/-- After a full reset no timer runs and none of their owners is in the state that it times. -/
theorem fullReset (p : Part) : p.fullReset.TimersSound := by
  refine p.fullReset.timersSound_iff.2 ⟨fun h => ?_, fun i => ?_, ?_, ?_⟩
  · rw [Part.fullReset_head]
    exact HeadRec.reset_silenceSound
  · simp [SectionRec.ConfirmSound, Part.sec, Part.fullReset, Part.resetValues, SectionRec.reset]
  · simp [ReportUnit.HoldSound, Part.fullReset, Part.resetValues, ReportUnit.reset]
  · simp [ImageStore.OpSound, Part.fullReset, Part.resetValues]

theorem startUpLoad (sound : p.TimersSound) (body : ImageBody) : (p.startUpLoad body).TimersSound := by
  have loaded := sound.setTables
    { active := some { table := body.table, crc := body.crc }, staging := body.table
      stagingState := .checked body.crc, lastCheck := .pass body.crc }
  have disturbed := foldl_inv Part.TimersSound (fun q i => q.disturb i .startUp)
    (fun _ i sound => sound.disturb i _) body.table.presentSections _ loaded
  have linked := foldl_inv Part.TimersSound
    (fun q l => if body.table.global.enabled[l] then q.setLink l (q.link l).toSearch else q)
    (fun _ l sound => by
      split
      · exact sound.setLink l _
      · exact sound) (List.finRange 4) _ (disturbed.setEvaluator
        (if body.table.global.startMode = 1 then .running else .halted))
  exact linked.sameHold ⟨rfl, rfl⟩

/-- The start-up sequence sets the image state, with no operation in flight (R163). -/
theorem startUp (p : Part) : p.fullReset.startUp.TimersSound := by
  have read (state : ImageState) :
      (p.fullReset.setImage { p.fullReset.image with state := state }).TimersSound :=
    (fullReset p).setImage (by simp [ImageStore.OpSound, Part.fullReset, Part.resetValues])
  unfold Part.startUp
  dsimp only
  split
  · exact (read _).startUpLoad _
  · exact read _

theorem keptUntilStartUp : KeptUntilStartUp Part.TimersSound where
  link := keptByLinkEvents
  setPins _ sound := sound.of_same rfl rfl ⟨rfl, rfl⟩ rfl
  fullReset _ := fullReset _
  setCount _ sound := sound.of_same rfl rfl ⟨rfl, rfl⟩ rfl
  request := request
  countDown sound := sound.countDown
  expire t sound := sound.expire t
  relayStart l sound := sound.relayStart l
  relayEnd l sound := sound.relayEnd l
  writeCompletion readBack sound := sound.writeCompletion readBack
  endTransmission sound := sound.endTransmission
  afterEvent sound := sound.afterEvent

end Part.TimersSound

/-- Settles O51: every event keeps each timer running exactly in its owner's state. -/
theorem stepsKeepTimersSound : Obligations.StepsKeepTimersSound := by
  intro s t sound ran
  exact (Part.TimersSound.keptUntilStartUp.keptByEvents fun p _ => .startUp p).step sound ran

end Sys2Proof.Machine
end

section
/-! SUPPORT. Heads on LOCKED links (Law 9, R44): a head comes into service only by a telegram of its own link, a
link that is lost fails its heads, and an activation between tables that pass C7 leaves the link of a head that it
keeps as it is. -/

namespace Sys2Proof.Machine

/-! ## What a table says of links -/

theorem linkOf_eq_some_iff (o : Octet) (l : LinkId) : linkOf o = some l ↔ o.toNat = l.val := by
  unfold linkOf
  split
  · simp [Fin.ext_iff]
  · have := l.isLt
    simp
    omega

/-- A head that the station map gives is present on the link (R84). -/
theorem Table.present_of_stationMap {t : Table} {l : LinkId} {station : Octet} {h : HeadId}
    (mapped : t.stationMap l station = some h) :
    (t.headCfg h).present = true ∧ linkOf (t.headCfg h).link = some l := by
  have stands := List.find?_some mapped
  rw [HeadRecord.standsAt, Bool.and_eq_true, Bool.and_eq_true, beq_iff_eq] at stands
  obtain ⟨⟨present, link⟩, -⟩ := stands
  exact ⟨present, (linkOf_eq_some_iff _ l).2 link⟩

/-- In a table that passes C7 a present head stands on an enabled link (R80). -/
theorem Table.enabled_of_firstFailure {t : Table} (passes : t.firstFailure = none) {h : HeadId}
    (present : (t.headCfg h).present = true) {l : LinkId} (link : linkOf (t.headCfg h).link = some l) :
    t.global.enabled[l] = true := by
  have c7 : t.checkC7 = none := by
    unfold Table.firstFailure at passes
    simp only [List.findSome?_eq_none_iff, id] at passes
    exact passes _ (by simp)
  simp only [Table.checkC7, firstHead, Option.map_eq_none_iff, List.find?_eq_none] at c7
  simpa [present, Table.linkEnabled, link] using c7 h (List.mem_finRange h)

/-- With no active table no head is present (R83). -/
theorem Part.headCfg_of_noTable {p : Part} (noTable : p.tables.active = none) (h : HeadId) :
    (p.headCfg h).present = false := by
  simp [Part.headCfg, Part.activeTable, noTable, Table.headCfg, Table.blank, HeadRecord.blank]

/-! ## Law 9 with the tables that it rests on -/

/-- Law 9, with the active table and a CHECKED staging table passing their checks (R44, R82). -/
structure Part.LocksSound (p : Part) : Prop where
  staging : p.StagingSound
  active  : p.ActiveSound
  heads   : p.HeadsOnLockedLinks

/-- What happens to other heads and to link states in a telegram of a head: nothing. -/
structure Part.SameBut (h : HeadId) (p q : Part) : Prop where
  heads : ∀ k, k ≠ h → q.head k = p.head k
  links : ∀ l, (q.link l).state = (p.link l).state

theorem Part.completeRelay_state (p : Part) (l m : LinkId) (r : RelayResult) :
    ((p.completeRelay l r).link m).state = (p.link m).state := by
  unfold Part.completeRelay
  split <;>
  · simp only [Part.offer_reads, Part.link_setLink_eq]
    split
    · simp [*, LinkRec.state]
    · rfl

theorem Part.SameBut.keptByTelegramSteps (p : Part) (h : HeadId) :
    KeptByTelegramSteps (p.SameBut h) h where
  setHead same _ := ⟨fun k ne => (Part.head_setHead_ne _ _ ne).trans (same.heads k ne), same.links⟩
  setDecoder _ same := ⟨same.heads, same.links⟩
  offer _ same := ⟨same.heads, same.links⟩
  failHead _ same :=
    ⟨fun k ne => by rw [Part.failHead_head, if_neg ne, same.heads k ne], fun l => by simp [same.links]⟩
  wheelEvent _ same := ⟨fun k ne => by simp [same.heads k ne], fun l => by simp [same.links]⟩
  completeRelay l r same :=
    ⟨fun k ne => by simp [same.heads k ne], fun m => by rw [Part.completeRelay_state, same.links]⟩

theorem Part.takeTelegram_sameBut (p : Part) (l : LinkId) (h : HeadId) (t : HeadTelegram) :
    p.SameBut h (p.takeTelegram l h t).1 :=
  (Part.SameBut.keptByTelegramSteps p h).takeTelegram l t ⟨fun _ _ => rfl, fun _ => rfl⟩

/-- A link loss fails the link's heads that are ACQUIRING or IN_SERVICE (R44). -/
theorem Part.loseHeads_head (p : Part) (l : LinkId) (h : HeadId) :
    (p.loseHeads l).head h =
      if h ∈ p.activeTable.headsOfLink l then
        if (p.head h).state = .acquiring ∨ (p.head h).state = .inService then (p.head h).fail .linkLost
        else p.head h
      else p.head h := by
  refine Part.foldl_head _ (fun _ r =>
    if r.state = .acquiring ∨ r.state = .inService then r.fail .linkLost else r) (fun q g k => ?_) _
    (p.activeTable.headsOfLink_nodup l) p h
  unfold Part.loseHead
  cases (q.head g).state <;> simp [Part.failHead_head] <;> rintro rfl <;> rfl

theorem Part.linkLoss_link_state (p : Part) (l m : LinkId) :
    ((p.linkLoss l).link m).state = if m = l then .search else (p.link m).state := by
  simp only [Part.linkLoss, Part.cancelRelays_link]
  split
  · simp [LinkRec.state, LinkRec.toSearch]
  · rename_i ne
    simp [Part.link_setLink_ne _ _ ne]

theorem Part.linkLoss_head (p : Part) (l : LinkId) (h : HeadId) :
    (p.linkLoss l).head h =
      if h ∈ p.activeTable.headsOfLink l then
        if (p.head h).state = .acquiring ∨ (p.head h).state = .inService then (p.head h).fail .linkLost
        else p.head h
      else p.head h := by
  simp [Part.linkLoss, Part.loseHeads_head]

namespace Part.LocksSound

variable {p q : Part}

/-- An operation that brings no head into service, takes no link out of LOCKED and leaves the tables. -/
theorem of_kept (sound : p.LocksSound) (tables : q.tables = p.tables)
    (heads : ∀ h, (q.head h).state = .inService → (p.head h).state = .inService)
    (links : ∀ l, (p.link l).state = .locked → (q.link l).state = .locked) : q.LocksSound where
  staging := by
    unfold Part.StagingSound
    rw [tables]
    exact sound.staging
  active := by
    unfold Part.ActiveSound
    rw [tables]
    exact sound.active
  heads h service := by
    obtain ⟨present, l, link, locked⟩ := sound.heads h (heads h service)
    have cfg : q.headCfg h = p.headCfg h := by simp [Part.headCfg, Part.activeTable, tables]
    rw [cfg]
    exact ⟨present, l, link, links l locked⟩

theorem of_blocks (sound : p.LocksSound) (tables : q.tables = p.tables) (heads : q.heads = p.heads)
    (links : q.links = p.links) : q.LocksSound :=
  sound.of_kept tables (fun h => by rw [Part.head, heads]; exact id)
    (fun l => by rw [Part.link, Part.link, links]; exact id)

/-- A link's record may change in all but leaving LOCKED. -/
theorem setLink (sound : p.LocksSound) {l : LinkId} {k : LinkRec}
    (state : k.state = (p.link l).state ∨ k.state = .locked) : (p.setLink l k).LocksSound := by
  refine sound.of_kept rfl (fun _ => id) fun m locked => ?_
  rw [Part.link_setLink_eq]
  split
  · rename_i e
    subst e
    rcases state with same | now
    · exact same.trans locked
    · exact now
  · exact locked

/-! ## The head links -/

/-- A link that is lost has no head left in service. -/
theorem linkLoss (sound : p.LocksSound) (l : LinkId) : (p.linkLoss l).LocksSound := by
  refine ⟨by simpa [Part.StagingSound] using sound.staging, by simpa [Part.ActiveSound] using sound.active,
    fun h service => ?_⟩
  rw [Part.linkLoss_head] at service
  have inService : (p.head h).state = .inService := by
    split at service
    · split at service
      · simp [HeadRec.fail] at service
      · exact service
    · exact service
  obtain ⟨present, m, link, locked⟩ := sound.heads h inService
  have elsewhere : m ≠ l := by
    rintro rfl
    have stands : h ∈ p.activeTable.headsOfLink m :=
      (Table.mem_headsOfLink _ m h).2 ⟨present, (linkOf_eq_some_iff _ m).1 link⟩
    simp [stands, inService, HeadRec.fail] at service
  refine ⟨by simpa using present, m, by simpa using link, ?_⟩
  rwa [Part.linkLoss_link_state, if_neg elsewhere]

/-- A telegram of a LOCKED link may bring into service the head that its station maps to, and no other. -/
theorem takeTelegram (sound : p.LocksSound) {l : LinkId} {h : HeadId} (t : HeadTelegram)
    (locked : (p.link l).state = .locked) (mapped : p.activeTable.stationMap l t.station = some h) :
    (p.takeTelegram l h t).1.LocksSound := by
  obtain ⟨others, links⟩ := p.takeTelegram_sameBut l h t
  refine ⟨by simpa [Part.StagingSound] using sound.staging, by simpa [Part.ActiveSound] using sound.active,
    fun k service => ?_⟩
  simp only [Part.takeTelegram_reads, links]
  by_cases own : k = h
  · subst own
    obtain ⟨present, link⟩ := Table.present_of_stationMap mapped
    exact ⟨present, l, link, locked⟩
  · rw [others k own] at service
    exact sound.heads k service

theorem keptByLinkEvents : KeptByLinkEvents Part.LocksSound where
  setLink sound may := sound.setLink may.state
  offer _ sound := sound.of_blocks rfl rfl rfl
  setMirrors _ sound := sound.of_blocks rfl rfl rfl
  linkLoss sound := sound.linkLoss _
  takeTelegram t sound locked mapped := sound.takeTelegram t locked mapped

/-! ## Requests on the staging table -/

theorem setTables (sound : p.LocksSound) {t : TableManager} (active : t.active = p.tables.active)
    (staging : ∀ crc, t.stagingState = .checked crc → t.staging.firstFailure = none) :
    (p.setTables t).LocksSound where
  staging := staging
  active a installed := sound.active a (active ▸ installed)
  heads h service := by
    have cfg : (p.setTables t).headCfg h = p.headCfg h := by simp [Part.headCfg, Part.activeTable, active]
    rw [cfg]
    exact sound.heads h service

theorem tableWriteRequest (sound : p.LocksSound) (body : List Octet) :
    (tableWriteRequest body p).1.LocksSound := by
  unfold Machine.tableWriteRequest
  split
  · exact sound
  · split
    · exact sound
    · split
      · exact sound.setTables rfl (by simp)
      · exact sound

theorem headAdoptRequest (sound : p.LocksSound) (body : List Octet) :
    (headAdoptRequest body p).1.LocksSound := by
  unfold Machine.headAdoptRequest
  split
  · exact sound
  · split
    · exact sound
    · exact sound.setTables rfl (by simp)

theorem tableCopyRequest (sound : p.LocksSound) (body : List Octet) :
    (tableCopyRequest body p).1.LocksSound := by
  unfold Machine.tableCopyRequest
  split
  · exact sound
  · rename_i a active
    exact sound.setTables rfl fun _ _ => sound.active a active

theorem tableCheckRequest (sound : p.LocksSound) (body : List Octet) :
    (tableCheckRequest body p).1.LocksSound := by
  unfold Machine.tableCheckRequest
  split
  · rename_i passes
    exact sound.setTables rfl fun _ _ => passes
  · exact sound.setTables rfl (by simp)

end Part.LocksSound

/-! ## TABLE ACTIVATE -/

theorem Part.activateHeads_head (p : Part) (old new : Table) (h : HeadId) :
    (p.activateHeads old new).head h =
      if headCleared old new h then (p.head h).cleared else p.head h := by
  have each := Part.foldl_head (fun q h => if headCleared old new h then q.clearHead h else q)
    (fun h r => if headCleared old new h then r.cleared else r) (fun q h k => by
      by_cases e : k = h
      · subst e
        split <;> simp [Part.clearHead]
      · split <;> simp [Part.clearHead, e, Part.head_setHead_ne]) (List.finRange 32)
    (List.nodup_finRange 32) p h
  rw [Part.activateHeads, each]
  simp

theorem Part.activateRelays_state (p : Part) (old new : Table) (l : LinkId) :
    ((p.activateRelays old new).link l).state = (p.link l).state := by
  refine foldl_keeps (fun q : Part => (q.link l).state) _ (fun q m => ?_) _ p
  rw [Part.cancelRelays_link]
  split
  · simp [*, LinkRec.state]
  · rfl

theorem Part.activateLinks_link (p : Part) (old new : Table) (l : LinkId) :
    (p.activateLinks old new).link l =
      if linkNewlyEnabled old new l then (p.link l).toSearch
      else if linkDisabled old new l then (p.link l).toOff else p.link l := by
  have each := Part.foldl_link (fun q l => q.activateLink old new l)
    (fun l k => if linkNewlyEnabled old new l then k.toSearch
      else if linkDisabled old new l then k.toOff else k) (fun q l m => by
      by_cases e : m = l
      · subst e
        unfold Part.activateLink
        split
        · simp
        · split <;> simp
      · unfold Part.activateLink
        split
        · simp [e, Part.link_setLink_ne]
        · split <;> simp [e, Part.link_setLink_ne]) (List.finRange 4) (List.nodup_finRange 4) p l
  rw [Part.activateLinks, each]
  simp

/-- A head that an activation does not clear is present in the new table where it was in the old, on the same
link. -/
theorem headCfg_of_not_cleared {old new : Table} {h : HeadId} (kept : headCleared old new h = false)
    (present : (old.headCfg h).present = true) :
    (new.headCfg h).present = true ∧ (new.headCfg h).link = (old.headCfg h).link := by
  cases now : (new.headCfg h).present <;> simp_all [headCleared, remapped, removed]

namespace Part.LocksSound

variable {p : Part}

/-- The link of a present head is enabled in the active table. -/
theorem enabled (sound : p.LocksSound) {h : HeadId} (present : (p.headCfg h).present = true) {l : LinkId}
    (link : linkOf (p.headCfg h).link = some l) : p.activeTable.global.enabled[l] = true := by
  cases installed : p.tables.active with
  | none => simp [Part.headCfg_of_noTable installed] at present
  | some a =>
    have table : p.activeTable = a.table := by simp [Part.activeTable, installed]
    rw [Part.headCfg, table] at present link
    rw [table]
    exact Table.enabled_of_firstFailure (sound.active a installed) present link

/-- A head that stays in service keeps its link, which both tables enable, so that the link keeps its state. -/
theorem activate (sound : p.LocksSound) {crc : Crc} (checked : p.tables.stagingState = .checked crc) :
    (p.activate crc).LocksSound := by
  have passes := sound.staging crc checked
  have tables : (p.activate crc).tables =
      { p.tables with active := some { table := p.tables.staging, crc := crc } } := by
    simp [Part.activate]
  have table : (p.activate crc).activeTable = p.tables.staging := by simp [Part.activeTable, tables]
  have record (h : HeadId) : (p.activate crc).head h =
      if headCleared p.activeTable p.tables.staging h then (p.head h).cleared else p.head h := by
    simp [Part.activate, Part.activateHeads_head]
  have state {l : LinkId} (was : p.activeTable.global.enabled[l] = true)
      (now : p.tables.staging.global.enabled[l] = true) :
      ((p.activate crc).link l).state = (p.link l).state := by
    simp [Part.activate, Part.activateLinks_link, linkNewlyEnabled, linkDisabled, was, now,
      Part.activateRelays_state]
  refine ⟨?_, ?_, fun h service => ?_⟩
  · unfold Part.StagingSound
    rw [tables]
    exact sound.staging
  · unfold Part.ActiveSound
    rw [tables]
    rintro _ ⟨⟩
    exact passes
  · rw [record] at service
    split at service
    · simp [HeadRec.cleared, HeadRec.reset] at service
    · rename_i kept
      obtain ⟨present, l, link, locked⟩ := sound.heads h service
      obtain ⟨stays, same⟩ := headCfg_of_not_cleared (by simpa using kept) present
      have newLink : linkOf (p.tables.staging.headCfg h).link = some l := by rwa [same]
      rw [Part.headCfg, table]
      refine ⟨stays, l, newLink, ?_⟩
      rwa [state (sound.enabled present link) (Table.enabled_of_firstFailure passes stays newLink)]

theorem tableActivateRequest (sound : p.LocksSound) (body : List Octet) :
    (tableActivateRequest body p).1.LocksSound := by
  unfold Machine.tableActivateRequest
  split
  · exact sound
  · split
    · exact sound.activate ‹_›
    · exact sound

/-! ## The other requests -/

theorem changeHead (sound : p.LocksSound) {h : HeadId} {f : HeadRec → HeadRec}
    (state : (f (p.head h)).state = .inService → (p.head h).state = .inService) :
    (p.changeHead h f).LocksSound := by
  refine sound.of_kept rfl (fun k service => ?_) fun _ => id
  rw [Part.changeHead, Part.head_setHead_eq] at service
  split at service
  · rename_i e
    subst e
    exact state service
  · exact service

theorem headReleaseRequest (sound : p.LocksSound) (body : List Octet) :
    (headReleaseRequest body p).1.LocksSound := by
  unfold Machine.headReleaseRequest
  split
  · exact sound
  · split
    · exact sound
    · split
      · exact sound
      · rename_i h _ _ _
        have released : (p.changeHead h fun r =>
            { r with state := .absent, baseline := none }).LocksSound := sound.changeHead (by simp)
        exact released.of_blocks rfl rfl rfl

theorem linkQueryRequest (sound : p.LocksSound) (body : List Octet) :
    (linkQueryRequest body p).1.LocksSound := by
  unfold Machine.linkQueryRequest
  split
  · exact sound
  · exact sound.setLink (.inl rfl)

theorem headRelayRequest (sound : p.LocksSound) (body : List Octet) :
    (headRelayRequest body p).1.LocksSound := by
  unfold Machine.headRelayRequest
  dsimp only
  generalize (if field body 3 = 1 then RelayCode.restart else .healthRequest) = code
  split
  · exact sound
  · split
    · exact sound
    · split
      · exact sound
      · split
        · exact sound
        · exact sound.setLink (.inl rfl)

/-- A request of any owner: those on tables, heads and links by their own lemmas, every other because it changes
none of these. -/
theorem request : ∀ owner ∈ requestOwners, ∀ body p, p.LocksSound → (owner body p).1.LocksSound := by
  have plain {owner : List Octet → Part → Part × Answer}
      (kept : ∀ body p, (owner body p).1.tables = p.tables ∧ (owner body p).1.heads = p.heads ∧
        (owner body p).1.links = p.links) :
      ∀ body p, p.LocksSound → (owner body p).1.LocksSound := by
    intro body p sound
    obtain ⟨tables, heads, links⟩ := kept body p
    exact sound.of_blocks tables heads links
  have halt (body : List Octet) (p : Part) : (haltRequest body p).1.tables = p.tables ∧
      (haltRequest body p).1.heads = p.heads ∧ (haltRequest body p).1.links = p.links := by
    unfold haltRequest
    split
    · simpa using foldl_keeps (fun q : Part => (q.tables, q.heads, q.links))
        (fun q i => q.disturbUnlessDisturbed i .halt) (fun q i => by simp) p.activeTable.presentSections
        (p.setEvaluator .halted)
    · exact ⟨rfl, rfl, rfl⟩
  simp only [requestOwners, List.forall_mem_cons]
  refine ⟨plain ?_, plain ?_, plain ?_, plain halt, plain ?_, plain ?_,
    fun body _ sound => sound.headReleaseRequest body, fun body _ sound => sound.headAdoptRequest body,
    fun body _ sound => sound.linkQueryRequest body, fun body _ sound => sound.headRelayRequest body,
    fun body _ sound => sound.tableWriteRequest body, plain ?_,
    fun body _ sound => sound.tableCopyRequest body, fun body _ sound => sound.tableCheckRequest body,
    fun body _ sound => sound.tableActivateRequest body, plain ?_, plain ?_, plain ?_, plain ?_, plain ?_,
    plain ?_, List.forall_mem_nil _⟩
  all_goals
    intro body p
    simp only [statusQueryRequest, sectionQueryRequest, startRequest, sectionResetRequest, headQueryRequest,
      tableReadRequest, storeRequest, commissionRequest, eraseStoreRequest, holdRequest, proceedRequest,
      noOwner]
    (repeat' split) <;> simp

/-! ## Expiries, relay telegrams and every event -/

theorem silenceExpiry (sound : p.LocksSound) (h : HeadId) : (p.silenceExpiry h).LocksSound := by
  unfold Part.silenceExpiry
  split
  · exact sound
  · cases state : (p.head h).state with
    | acquiring =>
      have silent : (p.changeHead h fun r =>
          { r with state := .absent, baseline := none, run := 0, identityConfirmed := false
                   silence := .stopped }).LocksSound := sound.changeHead (by simp)
      exact silent.of_blocks rfl rfl rfl
    | inService =>
      refine sound.of_kept (by simp) (fun k service => ?_) (by simp)
      rw [Part.failHead_head] at service
      split at service
      · simp [HeadRec.fail] at service
      · exact service
    | failed | absent => exact sound.changeHead (by simp [state])

theorem completeRelay (sound : p.LocksSound) (l : LinkId) (r : RelayResult) :
    (p.completeRelay l r).LocksSound :=
  sound.of_kept (by simp) (by simp) (by simp [Part.completeRelay_state])

theorem expire (sound : p.LocksSound) (t : TimerId) : (p.expire t).LocksSound := by
  cases t with
  | silence h => exact sound.silenceExpiry h
  | relay l =>
    unfold Part.expire Part.relayExpiry
    dsimp only
    split
    · exact sound
    · exact sound.completeRelay l _
  | confirm | holdLimit | reportCycle | store =>
    exact sound.of_blocks (by simp [Part.expire]) (by simp [Part.expire]) (by simp [Part.expire])

theorem relayStart (sound : p.LocksSound) (l : LinkId) : (p.relayStart l).LocksSound := by
  unfold Part.relayStart
  dsimp only
  split
  · split
    · exact sound.setLink (.inl rfl)
    · exact sound
  · exact sound

theorem relayEnd (sound : p.LocksSound) (l : LinkId) : (p.relayEnd l).LocksSound := by
  unfold Part.relayEnd
  dsimp only
  split
  · exact sound
  · have idle : (p.setLink l { (p.link l).withRx .hunt with transmitter := none }).LocksSound :=
      sound.setLink (LinkRec.MayReceive.withRx (p.link l) .hunt).state
    unfold Part.relaySent
    dsimp only
    split
    · exact idle
    · split
      · split
        · exact idle.setLink (.inl rfl)
        · exact idle.completeRelay l _
      · exact idle

/-- After a full reset every head is ABSENT. -/
theorem fullReset (p : Part) : p.fullReset.LocksSound where
  staging _ checked := by cases checked
  active _ installed := by cases installed
  heads h service := by simp [HeadRec.reset] at service

theorem keptUntilStartUp : KeptUntilStartUp Part.LocksSound where
  link := keptByLinkEvents
  setPins _ sound := sound.of_blocks rfl rfl rfl
  fullReset _ := fullReset _
  setCount _ sound := sound.of_blocks rfl rfl rfl
  request := request
  countDown sound := sound.of_kept rfl (by simp) (by simp [LinkRec.state])
  expire t sound := sound.expire t
  relayStart l sound := sound.relayStart l
  relayEnd l sound := sound.relayEnd l
  writeCompletion _ sound := sound.of_blocks (by simp) (by simp) (by simp)
  endTransmission sound := sound.of_blocks (by simp) (by simp) (by simp)
  afterEvent sound := sound.of_blocks (by simp) (by simp) (by simp)

end Part.LocksSound

/-- A part that has just started up has no head in service. -/
theorem Part.JustStartedUp.headsOnLockedLinks {p : Part} (started : p.JustStartedUp) :
    p.HeadsOnLockedLinks := by
  obtain ⟨q, rfl⟩ := started
  intro h service
  simp [HeadRec.reset] at service

/-- Settles O56: every event but a start-up keeps Law 9 with the tables it rests on, and a start-up, of whose
table the premises say nothing, leaves no head in service. -/
theorem stepsKeepHeadsOnLockedLinks : Obligations.StepsKeepHeadsOnLockedLinks := by
  intro s t staging active heads ran
  rcases Part.LocksSound.keptUntilStartUp.step ⟨staging, active, heads⟩ ran with sound | started
  · exact sound.heads
  · exact started.headsOnLockedLinks

end Sys2Proof.Machine
end

section
/-! SUPPORT. A request that is taken and answered (R143, R144), and HEAD RELEASE and HEAD ADOPT (R48, R49). -/

namespace Sys2Proof.Machine

/-! ## Requests that are answered -/

/-- A well-formed request that finds room is answered by its owner, which sees the receiver in WAIT and leaves
the count line to the reply. -/
theorem State.next_requestArrives {s : State} (room : s.hasRoom) {kind tag : Octet} {fields : List Octet}
    {owner : List Octet → Part → Part × Answer} {p : Part} {a : Answer} (fits : fields.length ≤ 33)
    (formed : requestForm kind (tag :: fields) = true)
    (answers : owner (tag :: fields) (s.toPart.setCountRx .wait) = (p, a))
    (count : p.count = (s.toPart.setCountRx .wait).count) :
    s.next (s.toPart.unlessReset fun q => q.requestArrives kind (tag :: fields) owner) =
      s.answeredAfter p tag kind a.outcome a.items := by
  obtain ⟨awake, free⟩ := room
  have length : bodyLengthFits (tag :: fields) = true := by
    simp [bodyLengthFits]
    omega
  have taken : ¬ replyCapacity ≤ (s.toPart.setCountRx .wait).count.replies.length := Nat.not_le.2 free
  rw [Part.unlessReset_awake awake, Part.requestArrives, Part.countTelegramArrives, if_pos length,
    Part.takeRequest, if_neg taken, if_pos formed, answers, State.next_eq, State.answeredAfter,
    Part.placeReply, count]
  rfl

theorem headOf_eq_some_iff (o : Octet) (h : HeadId) : headOf o = some h ↔ o.toNat = h.val := by
  unfold headOf
  split
  · simp [Fin.ext_iff]
  · have := h.isLt
    simp
    omega

theorem headOf_eq_none {o : Octet} (above : 32 ≤ o.toNat) : headOf o = none :=
  dif_neg (Nat.not_lt.2 above)

/-! ## HEAD RELEASE (R48) -/

section

variable {body : List Octet} {p : Part} {h : HeadId}

theorem headReleaseRequest_outOfRange (named : headOf (field body 1) = none) :
    headReleaseRequest body p = (p, refuse .range) := by
  simp [headReleaseRequest, named]

theorem headReleaseRequest_notPresent (named : headOf (field body 1) = some h)
    (absent : (p.headCfg h).present = false) : headReleaseRequest body p = (p, refuse .range) := by
  simp [headReleaseRequest, named, absent]

theorem headReleaseRequest_notFailed (named : headOf (field body 1) = some h)
    (present : (p.headCfg h).present = true) (state : (p.head h).state ≠ .failed) :
    headReleaseRequest body p = (p, refuse .state) := by
  simp [headReleaseRequest, named, present, state]

theorem headReleaseRequest_failed (named : headOf (field body 1) = some h)
    (present : (p.headCfg h).present = true) (state : (p.head h).state = .failed) :
    headReleaseRequest body p =
      ((p.setHead h { p.head h with state := .absent, baseline := none }).offer
        (.headState h .absent (p.head h).lastCause), done []) := by
  simp [headReleaseRequest, named, present, state, Part.changeHead, Part.offerHeadState]

/-! ## HEAD ADOPT (R49) -/

theorem headAdoptRequest_outOfRange (named : headOf (field body 1) = none) :
    headAdoptRequest body p = (p, refuse .range) := by
  simp [headAdoptRequest, named]

theorem headAdoptRequest_notLearned (named : headOf (field body 1) = some h)
    (learned : (p.head h).learned = none) : headAdoptRequest body p = (p, refuse .state) := by
  simp [headAdoptRequest, named, learned]

theorem headAdoptRequest_learned (named : headOf (field body 1) = some h) {identity : Identity}
    (learned : (p.head h).learned = some identity) :
    headAdoptRequest body p =
      (p.setTables { p.tables with
        staging := { p.tables.staging with
          heads := p.tables.staging.heads.set h.val
            { p.tables.staging.headCfg h with expected := identity } h.isLt }
        stagingState := .editing }, done []) := by
  simp [headAdoptRequest, named, learned]

end

/-- Settles O36: each owner's answer by the head that the request names, and the request's own reply. -/
theorem headReleaseAndAdopt : Obligations.HeadReleaseAndAdopt := by
  intro s tag number room
  have release {p : Part} {a : Answer}
      (answers : headReleaseRequest [tag, number] (s.toPart.setCountRx .wait) = (p, a))
      (count : p.count = (s.toPart.setCountRx .wait).count) :
      exec (.headRelease [tag, number]) s = s.answeredAfter p tag 0x16 a.outcome a.items :=
    State.next_requestArrives room (by simp) rfl answers count
  have adopt {p : Part} {a : Answer}
      (answers : headAdoptRequest [tag, number] (s.toPart.setCountRx .wait) = (p, a))
      (count : p.count = (s.toPart.setCountRx .wait).count) :
      exec (.headAdopt [tag, number]) s = s.answeredAfter p tag 0x17 a.outcome a.items :=
    State.next_requestArrives room (by simp) rfl answers count
  refine ⟨fun above => ?_, fun h number => ?_⟩
  · have named : headOf (field [tag, number] 1) = none := headOf_eq_none above
    exact ⟨release (headReleaseRequest_outOfRange named) rfl, adopt (headAdoptRequest_outOfRange named) rfl⟩
  · have named : headOf (field [tag, _] 1) = some h := (headOf_eq_some_iff _ h).2 number
    refine ⟨fun absent => ?_, fun present state => ?_, fun present state => ?_, fun learned => ?_,
      fun identity learned => ?_⟩
    · exact release (headReleaseRequest_notPresent named absent) rfl
    · exact release (headReleaseRequest_notFailed named present state) rfl
    · exact release (headReleaseRequest_failed named present state) rfl
    · exact adopt (headAdoptRequest_notLearned named learned) rfl
    · exact adopt (headAdoptRequest_learned named learned) rfl

end Sys2Proof.Machine
end

section
/-! SUPPORT. A head that fails out of service (R42, R43, R16, R104), as one update of the part, and the expiry of
its silence timer (R26). -/

namespace Sys2Proof.Machine

/-! ## The out-of-service signal (R43, R104) -/

/-- Sections that enter DISTURBED unless they are in it: those that are not enter it, one after the other. -/
theorem Part.foldl_disturbUnlessDisturbed (c : Cause) (is : List SectionId) (nd : is.Nodup) (p : Part) :
    is.foldl (fun q i => q.disturbUnlessDisturbed i c) p =
      (is.filter fun i => decide ((p.sec i).state ≠ .disturbed)).foldl (fun q i => q.disturb i c) p := by
  induction is generalizing p with
  | nil => rfl
  | cons i is ih =>
    obtain ⟨fresh, nd⟩ := List.nodup_cons.1 nd
    rw [List.foldl_cons, ih nd, List.filter_cons, Part.disturbUnlessDisturbed]
    by_cases disturbed : (p.sec i).state = .disturbed
    · simp [disturbed]
    · have same : is.filter (fun j => decide (((p.disturb i c).sec j).state ≠ .disturbed)) =
          is.filter fun j => decide ((p.sec j).state ≠ .disturbed) := by
        refine List.filter_congr fun j mem => ?_
        have ne : j ≠ i := fun e => fresh (e ▸ mem)
        rw [Part.disturb_sec, if_neg ne]
      simp only [disturbed, if_false, ne_eq, not_false_eq_true, decide_true, if_true, List.foldl_cons]
      rw [← same]

/-- The sections of a head's boundary index, in ascending number (R84). -/
theorem Table.boundaryIndex_sections (t : Table) (h : HeadId) :
    (t.boundaryIndex h).map Prod.fst = (List.finRange 24).filter fun i =>
      (t.sectionCfg i).present && (t.sectionCfg i).names h := by
  have index := t.boundaryIndex_filter h fun _ => true
  rw [List.filter_true] at index
  rw [index]
  refine List.filter_congr fun i _ => ?_
  congr 1
  rw [Bool.eq_iff_iff, SectionRecord.names_iff]
  simp [Option.isSome_iff_exists]

/-- The sections that the signal disturbs join the report queue in ascending number, where they do not stand in
it already (R102, R104, R149). -/
theorem Part.outOfService_report (p : Part) (h : HeadId) (c : HeadCause) :
    (p.outOfService h c).report = { p.report with
      queue := p.report.queue ++ (List.finRange 24).filter fun i =>
        (p.sectionCfg i).present && (p.sectionCfg i).names h &&
          decide ((p.sec i).state ≠ .disturbed) && decide (i ∉ p.report.queue) } := by
  have sections : p.outOfService h c = ((p.activeTable.boundaryIndex h).map Prod.fst).foldl
      (fun q i => q.disturbUnlessDisturbed i (.headFailed h c)) p :=
    foldl_fst (fun (q : Part) i => q.disturbUnlessDisturbed i (.headFailed h c)) _ _
  rw [sections, Table.boundaryIndex_sections,
    Part.foldl_disturbUnlessDisturbed _ _ ((List.nodup_finRange 24).filter _),
    Part.foldl_marks (fun q i => q.disturb i _) _ (((List.nodup_finRange 24).filter _).filter _) p
      fun _ _ _ => rfl,
    List.filter_filter, List.filter_filter]
  simp only [Part.sectionCfg, Bool.and_comm, Bool.and_assoc]

/-- The signal disturbs sections and marks them, and does nothing else. -/
theorem Part.outOfService_eq (p : Part) (h : HeadId) (c : HeadCause) :
    p.outOfService h c =
      { p with sections := (p.outOfService h c).sections, report := (p.outOfService h c).report } := by
  have kept := p.outOfService_keeps h c
  generalize p.outOfService h c = q at kept
  cases p
  cases q
  simp_all

/-! ## A head that fails -/

/-- A head that is not IN_SERVICE fails with its notice and nothing more (R42, R46). -/
theorem Part.failHead_of_out {p : Part} {h : HeadId} (out : (p.head h).state ≠ .inService) (c : HeadCause) :
    p.failHead h c = (p.setHead h ((p.head h).fail c)).offer (.headState h .failed c) := by
  simp [Part.failHead, out, Part.offerHeadState, HeadRec.fail]

/-- A head that leaves IN_SERVICE also has its decoder reset and sends its signal (R16, R43). -/
theorem Part.failHead_of_inService {p : Part} {h : HeadId} (service : (p.head h).state = .inService)
    (c : HeadCause) :
    p.failHead h c = (((p.setHead h ((p.head h).fail c)).offer (.headState h .failed c)).setDecoder h
      (p.decoder h).rest).outOfService h c := by
  simp [Part.failHead, service, Part.offerHeadState, HeadRec.fail]

/-- A failure out of service, but for what it makes of the sections. -/
theorem Part.failHead_eq_of_inService {p : Part} {h : HeadId} (service : (p.head h).state = .inService)
    (c : HeadCause) :
    p.failHead h c =
      { ((p.setHead h ((p.head h).fail c)).setDecoder h (p.decoder h).rest) with
        sections := (p.failHead h c).sections
        report := { p.report.offer (.headState h .failed c) with
          queue := p.report.queue ++ (List.finRange 24).filter fun i =>
            (p.sectionCfg i).present && (p.sectionCfg i).names h &&
              decide ((p.sec i).state ≠ .disturbed) && decide (i ∉ p.report.queue) } } := by
  rw [Part.failHead_of_inService service, Part.outOfService_eq, Part.outOfService_report, Part.setDecoder_report,
    Part.offer_report, (ReportUnit.offer_keeps _ _).1]
  rfl

/-! ## SILENCE_EXPIRY (R26) -/

theorem exec_silenceExpiry {s : State} (awake : s.awake) (h : HeadId) :
    exec (.silenceExpiry h) s = .next (State.afterEvent { s with toPart := s.silenceExpiry h }) := by
  have ran : exec (.silenceExpiry h) s = s.next (s.toPart.unlessReset fun p => p.silenceExpiry h) := rfl
  rw [ran, Part.unlessReset_awake awake, State.next_eq]

theorem Part.silenceExpiry_of_acquiring {p : Part} {h : HeadId} (runs : (p.head h).silence ≠ .stopped)
    (state : (p.head h).state = .acquiring) :
    p.silenceExpiry h = (p.setHead h { p.head h with
      state := .absent, baseline := none, run := 0, identityConfirmed := false
      silence := .stopped }).offer (.headState h .absent (p.head h).lastCause) := by
  unfold Part.silenceExpiry
  split
  · contradiction
  · simp [state, Part.changeHead, Part.offerHeadState]

theorem Part.silenceExpiry_of_inService {p : Part} {h : HeadId} (runs : (p.head h).silence ≠ .stopped)
    (state : (p.head h).state = .inService) : p.silenceExpiry h = p.failHead h .silence := by
  unfold Part.silenceExpiry
  split
  · contradiction
  · simp [state]

/-- Settles O22: no expiry of a stopped timer, the return to ABSENT, and the failure with what it makes of each
section. -/
theorem silenceExpires : Obligations.SilenceExpires := by
  intro s h awake
  rw [exec_silenceExpiry awake]
  refine ⟨fun stopped => ?_, fun runs state => ?_, fun runs state => ?_⟩
  · rw [show s.silenceExpiry h = s.toPart from Part.expire_of_stopped (t := .silence h) stopped]
  · rw [Part.silenceExpiry_of_acquiring runs state]
    rfl
  · rw [Part.silenceExpiry_of_inService runs state]
    refine ⟨{ s with toPart := s.failHead h .silence }, rfl, fun i => ?_, ?_⟩
    · show (s.failHead h .silence).sec i = _
      rw [Part.failHead_sec, SectionRec.disturbUnlessDisturbed]
      simp only [state, true_and, ← and_assoc]
      split <;> rename_i present
      · by_cases disturbed : (s.sec i).state = .disturbed
        · simp [disturbed]
        · simp [disturbed, present, SectionRec.disturb]
      · rw [if_neg fun both => present both.1]
    · exact congrArg (fun p => { s with toPart := p }) (Part.failHead_eq_of_inService state .silence)

end Sys2Proof.Machine
end

section
/-! SUPPORT. The steps of a telegram one by one (R24 to R40): the sequence step's verdict, and what each later step
makes of the part, for a head in any state. -/

namespace Sys2Proof.Machine

/-! ## Writes and notices -/

theorem Part.setHead_head (p : Part) (h : HeadId) : p.setHead h (p.head h) = p := by
  simp [Part.setHead, Part.head]

theorem Part.notified_append (p : Part) (first rest : List Notice) :
    p.notified (first ++ rest) = (p.notified first).notified rest := by
  simp [Part.notified]

@[simp] theorem Part.notified_nil (p : Part) : p.notified [] = p := rfl

theorem Part.offer_eq_notified (p : Part) (n : Notice) : p.offer n = p.notified [n] := rfl

@[simp] theorem Part.notified_reads (p : Part) (ns : List Notice) (h : HeadId) :
    (p.notified ns).head h = p.head h ∧ (p.notified ns).headCfg h = p.headCfg h ∧
      (p.notified ns).decoder h = p.decoder h :=
  ⟨rfl, rfl, rfl⟩

/-- A notice and a write of a head's record, in either order. -/
theorem Part.notified_setHead (p : Part) (ns : List Notice) (h : HeadId) (r : HeadRec) :
    (p.notified ns).setHead h r = (p.setHead h r).notified ns := rfl

@[simp] theorem Part.heard_head (p : Part) (h : HeadId) :
    (p.heard h).head h = { p.head h with silence := .running (p.headCfg h).silenceTimeout.toNat } := by
  simp [Part.heard]

@[simp] theorem Part.heard_headCfg (p : Part) (h k : HeadId) : (p.heard h).headCfg k = p.headCfg k := rfl

/-! ## The silence step (R25, R41) -/

/-- The part in which the acquisition of a head has begun (R41, R46). -/
def Part.begun (p : Part) (h : HeadId) : Part :=
  (p.setHead h { p.head h with
    state := .acquiring, run := 0, identityConfirmed := false
    silence := .running (p.headCfg h).silenceTimeout.toNat }).notified
      [.headState h .acquiring (p.head h).lastCause]

theorem Part.silenceStep_absent {p : Part} {h : HeadId} (state : (p.head h).state = .absent) :
    p.silenceStep h = p.begun h := by
  simp [Part.silenceStep, state, Part.beginAcquisition, Part.startSilence, Part.changeHead,
    Part.offerHeadState, Part.begun, Part.offer_eq_notified]

theorem Part.silenceStep_acquiring {p : Part} {h : HeadId} (state : (p.head h).state = .acquiring) :
    p.silenceStep h = p.heard h := by
  simp [Part.silenceStep, state, Part.startSilence, Part.changeHead, Part.heard]

theorem Part.silenceStep_inService {p : Part} {h : HeadId} (state : (p.head h).state = .inService) :
    p.silenceStep h = p.heard h := by
  simp [Part.silenceStep, state, Part.startSilence, Part.changeHead, Part.heard]

theorem Part.silenceStep_failed {p : Part} {h : HeadId} (state : (p.head h).state = .failed) :
    p.silenceStep h = p := by
  simp [Part.silenceStep, state]

/-- The silence step leaves the baseline. -/
theorem Part.silenceStep_baseline (p : Part) (h : HeadId) :
    ((p.silenceStep h).head h).baseline = (p.head h).baseline := by
  cases state : (p.head h).state with
  | absent => simp [Part.silenceStep_absent state, Part.begun]
  | acquiring => simp [Part.silenceStep_acquiring state]
  | inService => simp [Part.silenceStep_inService state]
  | failed => rw [Part.silenceStep_failed state]

/-! ## The sequence step (R28 to R32) -/

theorem judgeSequence_inOrder {b : Baseline} {t : HeadTelegram} (next : t.sequence = b.sequence + 1) :
    judgeSequence b t = .inOrder := by
  simp [judgeSequence, next]

theorem judgeSequence_repeated {b : Baseline} {t : HeadTelegram} (same : t.sequence = b.sequence) :
    judgeSequence b t = .repeated := by
  simp [judgeSequence, same]

theorem judgeSequence_bridged {b : Baseline} {t : HeadTelegram} (notNext : t.sequence ≠ b.sequence + 1)
    (other : t.sequence ≠ b.sequence)
    (seen : t.changeCount - b.changeCount - BitVec.ofNat 8 t.changes.length = 0) :
    judgeSequence b t = .bridged (t.sequence - b.sequence - 1).toNat := by
  simp only [judgeSequence, unseenChanges, missingTelegrams, notNext, other, seen, if_true, if_false]

theorem judgeSequence_lost {b : Baseline} {t : HeadTelegram} (notNext : t.sequence ≠ b.sequence + 1)
    (other : t.sequence ≠ b.sequence)
    (unseen : t.changeCount - b.changeCount - BitVec.ofNat 8 t.changes.length ≠ 0) :
    judgeSequence b t = .lost := by
  simp only [judgeSequence, unseenChanges, notNext, other, unseen, if_false]

/-- The verdict on a telegram of a head, after the silence step. -/
def Part.verdict (p : Part) (h : HeadId) (t : HeadTelegram) : SequenceVerdict :=
  sequenceVerdict (decide ((p.head h).state = .absent)) ((p.silenceStep h).head h) t

theorem Part.verdict_absent {p : Part} {h : HeadId} (state : (p.head h).state = .absent) (t : HeadTelegram) :
    p.verdict h t = .inOrder := by
  simp [Part.verdict, sequenceVerdict, state]

/-- Of a head ACQUIRING or IN_SERVICE the sequence is judged against the baseline. -/
theorem Part.verdict_heard {p : Part} {h : HeadId} {b : Baseline}
    (state : (p.head h).state = .acquiring ∨ (p.head h).state = .inService)
    (known : (p.head h).baseline = some b) (t : HeadTelegram) : p.verdict h t = judgeSequence b t := by
  rcases state with state | state
  · simp [Part.verdict, sequenceVerdict, Part.silenceStep_acquiring state, state, known]
  · simp [Part.verdict, sequenceVerdict, Part.silenceStep_inService state, state, known]

/-- Of a FAILED head only a repeat is told apart (R32). -/
theorem Part.verdict_failed {p : Part} {h : HeadId} {b : Baseline} (state : (p.head h).state = .failed)
    (known : (p.head h).baseline = some b) (t : HeadTelegram) :
    p.verdict h t = if t.sequence = b.sequence then .repeated else .inOrder := by
  simp [Part.verdict, sequenceVerdict, Part.silenceStep_failed state, state, known]

theorem judgeSequence_eq_repeated_iff (b : Baseline) (t : HeadTelegram) :
    judgeSequence b t = .repeated ↔ t.sequence = b.sequence := by
  refine ⟨fun verdict => ?_, judgeSequence_repeated⟩
  unfold judgeSequence at verdict
  split at verdict
  · cases verdict
  · split at verdict
    · assumption
    · split at verdict <;> cases verdict

/-- A repeat, in any state but ABSENT, is a telegram with the sequence of the baseline (R28, R32). -/
theorem Part.verdict_eq_repeated_iff (p : Part) (h : HeadId) (t : HeadTelegram) :
    p.verdict h t = .repeated ↔ (p.head h).state ≠ .absent ∧
      ∃ b, (p.head h).baseline = some b ∧ t.sequence = b.sequence := by
  by_cases absent : (p.head h).state = .absent
  · simp [Part.verdict_absent absent, absent]
  · unfold Part.verdict sequenceVerdict
    rw [Part.silenceStep_baseline, decide_eq_false absent]
    cases (p.head h).baseline with
    | none => simp
    | some b =>
      simp only [Bool.false_eq_true, if_false]
      split
      · split <;> simp [*]
      · simp [judgeSequence_eq_repeated_iff, absent]

/-! ## A telegram, by its marker and its verdict -/

section

variable {p : Part} {h : HeadId} {t : HeadTelegram}

theorem Part.takeTelegram_marked (marked : t.restart = true) (l : LinkId) :
    p.takeTelegram l h t = (((p.silenceStep h).restartMarkerStep h).laterSteps l h t, false) := by
  simp [Part.takeTelegram, marked]

theorem Part.takeTelegram_repeated (unmarked : t.restart = false) (verdict : p.verdict h t = .repeated)
    (l : LinkId) : p.takeTelegram l h t = (p.silenceStep h, true) := by
  unfold Part.verdict at verdict
  simp [Part.takeTelegram, unmarked, verdict]

theorem Part.takeTelegram_next (unmarked : t.restart = false) (verdict : p.verdict h t = .inOrder)
    (l : LinkId) :
    p.takeTelegram l h t = (((p.silenceStep h).changeListStep h t).laterSteps l h t, false) := by
  unfold Part.verdict at verdict
  simp [Part.takeTelegram, unmarked, verdict]

theorem Part.takeTelegram_bridged (unmarked : t.restart = false) {k : Nat}
    (verdict : p.verdict h t = .bridged k) (l : LinkId) :
    p.takeTelegram l h t = (((p.silenceStep h).bridgedStep h k t).laterSteps l h t, false) := by
  unfold Part.verdict at verdict
  simp [Part.takeTelegram, unmarked, verdict]

theorem Part.takeTelegram_lost (unmarked : t.restart = false) (verdict : p.verdict h t = .lost)
    (l : LinkId) :
    p.takeTelegram l h t = (((p.silenceStep h).sequenceLossStep h).laterSteps l h t, false) := by
  unfold Part.verdict at verdict
  simp [Part.takeTelegram, unmarked, verdict]

/-- Every telegram goes through the later steps, but for a repeat (R28, R32). -/
theorem Part.takeTelegram_cases (p : Part) (l : LinkId) (h : HeadId) (t : HeadTelegram) :
    (t.restart = false ∧ p.verdict h t = .repeated ∧ p.takeTelegram l h t = (p.silenceStep h, true)) ∨
      (¬ (t.restart = false ∧ p.verdict h t = .repeated) ∧
        ∃ q, p.takeTelegram l h t = (Part.laterSteps q l h t, false)) := by
  cases marker : t.restart with
  | true => exact .inr ⟨by simp, _, Part.takeTelegram_marked marker l⟩
  | false =>
    cases verdict : p.verdict h t with
    | repeated => exact .inl ⟨rfl, rfl, Part.takeTelegram_repeated marker verdict l⟩
    | inOrder => exact .inr ⟨by simp, _, Part.takeTelegram_next marker verdict l⟩
    | bridged k => exact .inr ⟨by simp, _, Part.takeTelegram_bridged marker verdict l⟩
    | lost => exact .inr ⟨by simp, _, Part.takeTelegram_lost marker verdict l⟩

end

/-! ## The baseline (R39) -/

theorem Part.admissionStep_baseline (p : Part) (h : HeadId) :
    ((p.admissionStep h).head h).baseline = (p.head h).baseline := by
  unfold Part.admissionStep
  split
  · dsimp only
    split
    · simp [Part.changeHead]
    · rfl
  all_goals rfl

theorem Part.laterSteps_baseline (p : Part) (l : LinkId) (h : HeadId) (t : HeadTelegram) :
    ((p.laterSteps l h t).head h).baseline =
      some { sequence := t.sequence, changeCount := t.changeCount } := by
  rw [Part.laterSteps, Part.admissionStep_baseline, Part.baselineStep, Part.changeHead, Part.head_setHead]

/-- Settles O21: a telegram that is no repeat ends in the later steps, which take the baseline; a repeat ends
with the silence step, which leaves it. -/
theorem baselineFollowsEveryTelegramButARepeat : Obligations.BaselineFollowsEveryTelegramButARepeat := by
  intro p l h t repeated means
  rw [← Part.verdict_eq_repeated_iff] at means
  rw [means]
  rcases p.takeTelegram_cases l h t with ⟨unmarked, verdict, taken⟩ | ⟨other, q, taken⟩
  · rw [taken]
    exact ⟨by simp [unmarked, verdict], fun no => absurd ⟨unmarked, verdict⟩ no,
      fun _ => p.silenceStep_baseline h⟩
  · rw [taken]
    exact ⟨by simpa using other, fun _ => q.laterSteps_baseline l h t, fun yes => absurd yes other⟩

end Sys2Proof.Machine
end

section
/-! SUPPORT. The health block, the echo, the baseline and the admission (R34 to R40), and telegrams of mapped heads
whole (R24, R60). -/

namespace Sys2Proof.Machine

/-! ## A failure and a write of the same record -/

/-- A head's record is not read by the out-of-service signal. -/
theorem Part.setHead_outOfService (p : Part) (h k : HeadId) (r : HeadRec) (c : HeadCause) :
    (p.setHead h r).outOfService k c = (p.outOfService k c).setHead h r := by
  refine List.foldl_hom (fun q : Part => q.setHead h r) fun q item => ?_
  unfold Part.disturbUnlessDisturbed
  rw [Part.setHead_sec]
  split <;> rfl

/-- A write that leaves the state of a head's record may come before the head's failure or after it. -/
theorem Part.failHead_setHead {p : Part} {h : HeadId} {r : HeadRec} (state : r.state = (p.head h).state)
    (c : HeadCause) : (p.failHead h c).setHead h (r.fail c) = (p.setHead h r).failHead h c := by
  by_cases service : (p.head h).state = .inService
  · have written : ((p.setHead h r).head h).state = .inService := by simpa [state] using service
    rw [Part.failHead_of_inService service, Part.failHead_of_inService written, ← Part.setHead_outOfService,
      Part.head_setHead, Part.setHead_setHead]
    simp only [Part.offer, Part.setDecoder, Part.setHead, Part.setReport, Vector.set_set]
    rfl
  · have written : ((p.setHead h r).head h).state ≠ .inService := by simpa [state] using service
    rw [Part.failHead_of_out service, Part.failHead_of_out written, Part.head_setHead, Part.setHead_setHead]
    simp only [Part.offer, Part.setHead, Part.setReport, Vector.set_set]

/-! ## The health block (R34 to R37) -/

/-- The part with a health block stored (R34). -/
def Part.stored (p : Part) (h : HeadId) (b : Health) : Part :=
  p.setHead h { p.head h with health := some b }

@[simp] theorem Part.stored_head (p : Part) (h : HeadId) (b : Health) :
    (p.stored h b).head h = { p.head h with health := some b } :=
  p.head_setHead h _

@[simp] theorem Part.stored_headCfg (p : Part) (h k : HeadId) (b : Health) :
    (p.stored h b).headCfg k = p.headCfg k := rfl

/-- The fault of a health block and its cause: a low level, or else the supply alarm (R34). -/
def Part.healthFaultIs (p : Part) (h : HeadId) (b : Health) (c : HeadCause) : Prop :=
  p.levelLow h b ∧ c = .sensorLow ∨ ¬ p.levelLow h b ∧ b.supplyAlarm = true ∧ c = .supplyAlarm

theorem Part.exists_healthFaultIs {p : Part} {h : HeadId} {b : Health}
    (fault : p.levelLow h b ∨ b.supplyAlarm = true) : ∃ c, p.healthFaultIs h b c := by
  by_cases low : p.levelLow h b
  · exact ⟨.sensorLow, .inl ⟨low, rfl⟩⟩
  · exact ⟨.supplyAlarm, .inr ⟨low, fault.resolve_left low, rfl⟩⟩

section

variable {p : Part} {h : HeadId} {b : Health}

theorem Part.levelsStep_fault {c : HeadCause} (fault : p.healthFaultIs h b c) :
    p.levelsStep h b = p.healthFault h c := by
  unfold Part.healthFaultIs Part.levelLow at fault
  rcases fault with ⟨low, rfl⟩ | ⟨fine, alarm, rfl⟩
  · simp [Part.levelsStep, low]
  · simp [Part.levelsStep, fine, alarm]

theorem Part.levelsStep_fine (fine : ¬ p.levelLow h b) (quiet : b.supplyAlarm = false) :
    p.levelsStep h b = p := by
  unfold Part.levelLow at fine
  simp [Part.levelsStep, fine, quiet]

theorem Part.healthFault_failed (state : (p.head h).state = .failed) (c : HeadCause) :
    p.healthFault h c = p := by
  simp [Part.healthFault, state]

theorem Part.healthFault_inService (state : (p.head h).state = .inService) (c : HeadCause) :
    p.healthFault h c = p.failHead h c := by
  simp [Part.healthFault, state]

theorem Part.healthFault_acquiring (state : (p.head h).state = .acquiring) (c : HeadCause) :
    p.healthFault h c = p.setHead h { p.head h with run := 0, identityConfirmed := false } := by
  simp [Part.healthFault, state, Part.changeHead, HeadRec.restartRun]

/-- The levels of a FAILED head are stored and not judged. -/
theorem Part.levelsStep_failed (state : (p.head h).state = .failed) : p.levelsStep h b = p := by
  unfold Part.levelsStep
  dsimp only
  split
  · exact Part.healthFault_failed state _
  · split
    · exact Part.healthFault_failed state _
    · rfl

end

/-- The temperature alarm against the block replaced (R35). -/
theorem Part.temperatureStep_eq (p : Part) (h : HeadId) (r : HeadRec) (b : Health) :
    p.temperatureStep h r.health b = p.notified (r.temperatureNotices h b) := by
  unfold Part.temperatureStep HeadRec.temperatureNotices
  cases r.health <;> dsimp only <;> split <;> rfl

/-- The notice of a new learned identity (R36). -/
def Part.identityNotices (p : Part) (h : HeadId) (b : Health) : List Notice :=
  if (p.headCfg h).expected = 0 ∧ (p.head h).learned ≠ some b.identity then
    [.identityLearned h b.identity]
  else []

theorem Part.healthNotices_eq (p : Part) (h : HeadId) (b : Health) :
    p.healthNotices h b = (p.head h).temperatureNotices h b ++ p.identityNotices h b := rfl

/-- A record whose head's identity has been learned, or has been found as expected (R36, R37): the flag is set
of an ACQUIRING head that expects one. -/
def HeadRec.identified (r : HeadRec) (cfg : HeadRecord) (b : Health) : HeadRec :=
  { r with
    learned := if cfg.expected = 0 then some b.identity else r.learned
    identityConfirmed :=
      (decide (r.state = .acquiring) && decide (cfg.expected ≠ 0)) || r.identityConfirmed }

theorem Part.identityNotices_of_expecting {p : Part} {h : HeadId} (expects : (p.headCfg h).expected ≠ 0)
    (b : Health) : p.identityNotices h b = [] :=
  if_neg fun new => expects new.1

/-- In learning the identity is stored, with its notice where it is new (R36). -/
theorem Part.identityStep_learning {p : Part} {h : HeadId} (learns : (p.headCfg h).expected = 0)
    (b : Health) :
    p.identityStep h b =
      (p.setHead h ((p.head h).identified (p.headCfg h) b)).notified (p.identityNotices h b) := by
  have record : (p.head h).identified (p.headCfg h) b = { p.head h with learned := some b.identity } := by
    simp only [HeadRec.identified, learns, if_true, ne_eq, not_true_eq_false, decide_false, Bool.and_false,
      Bool.false_or]
  unfold Part.identityStep Part.identityNotices
  rw [record, if_pos learns]
  by_cases known : (p.head h).learned = some b.identity
  · simp only [known, ne_eq, not_true_eq_false, and_false, if_false, if_true]
    rfl
  · simp only [known, learns, ne_eq, not_false_eq_true, and_self, if_false, if_true]
    rfl

/-- An identity that fails no head is learned, or is the expected one, or is that of a FAILED head. -/
theorem Part.identityStep_passed {p : Part} {h : HeadId} {b : Health}
    (passes : (p.headCfg h).expected = 0 ∨ (p.headCfg h).expected = b.identity ∨
      (p.head h).state = .failed) :
    p.identityStep h b =
      (p.setHead h ((p.head h).identified (p.headCfg h) b)).notified (p.identityNotices h b) := by
  by_cases learns : (p.headCfg h).expected = 0
  · exact Part.identityStep_learning learns b
  · have passes := passes.resolve_left learns
    rw [Part.identityNotices_of_expecting learns, Part.notified_nil, Part.identityStep, if_neg learns]
    by_cases acquiring : (p.head h).state = .acquiring
    · have expected : b.identity = (p.headCfg h).expected := 
        (passes.resolve_right (by simp [acquiring])).symm
      rw [if_pos expected]
      simp only [acquiring, Part.changeHead, HeadRec.identified, learns, if_false, ne_eq, not_false_eq_true,
        decide_true, Bool.and_self, Bool.true_or]
    · have record : (p.head h).identified (p.headCfg h) b = p.head h := by
        simp only [HeadRec.identified, learns, acquiring, if_false, decide_false, Bool.false_and,
          Bool.false_or]
      rw [record, Part.setHead_head]
      split
      · cases state : (p.head h).state <;> simp_all
      · rename_i other
        have failed : (p.head h).state = .failed := passes.resolve_left (Ne.symm other)
        simp only [failed]

theorem Part.identityStep_mismatch {p : Part} {h : HeadId} {b : Health}
    (state : (p.head h).state = .acquiring ∨ (p.head h).state = .inService)
    (expects : (p.headCfg h).expected ≠ 0) (other : (p.headCfg h).expected ≠ b.identity) :
    p.identityStep h b = p.failHead h .identityMismatch := by
  rw [Part.identityStep, if_neg expects, if_neg other.symm]
  rcases state with state | state <;> simp only [state]

/-! ### The block whole -/

section

variable {p q : Part} {h : HeadId} {t : HeadTelegram} {b : Health}

/-- The block is stored, its levels are judged, its alarm is compared with that of the block before, and its
identity is judged. -/
theorem Part.healthStep_eq (block : t.health = some b) :
    p.healthStep h t = (((p.stored h b).levelsStep h b).notified
      ((p.head h).temperatureNotices h b)).identityStep h b := by
  rw [← Part.temperatureStep_eq, Part.healthStep, block]
  rfl

/-- A health block whose identity fails no head, after the levels have made `q` of the part. -/
theorem Part.healthStep_passed (block : t.health = some b) (levels : (p.stored h b).levelsStep h b = q)
    (cfg : q.headCfg h = p.headCfg h) (learned : (q.head h).learned = (p.head h).learned)
    (passes : (p.headCfg h).expected = 0 ∨ (p.headCfg h).expected = b.identity ∨
      (q.head h).state = .failed) :
    p.healthStep h t =
      (q.setHead h ((q.head h).identified (p.headCfg h) b)).notified (p.healthNotices h b) := by
  have notices : (q.notified ((p.head h).temperatureNotices h b)).identityNotices h b =
      p.identityNotices h b := by
    simp only [Part.identityNotices, Part.notified_reads, cfg, learned]
  rw [Part.healthStep_eq block, levels, Part.identityStep_passed (by simpa [cfg] using passes), notices,
    Part.notified_setHead, Part.healthNotices_eq, Part.notified_append]
  simp only [Part.notified_reads, cfg]

/-- A health block with another identity than the expected, after the levels have made `q` of the part. -/
theorem Part.healthStep_mismatch (block : t.health = some b) (levels : (p.stored h b).levelsStep h b = q)
    (cfg : q.headCfg h = p.headCfg h) (state : (q.head h).state = .acquiring ∨ (q.head h).state = .inService)
    (expects : (p.headCfg h).expected ≠ 0) (other : (p.headCfg h).expected ≠ b.identity) :
    p.healthStep h t = (q.notified ((p.head h).temperatureNotices h b)).failHead h .identityMismatch := by
  rw [Part.healthStep_eq block, levels]
  exact Part.identityStep_mismatch state (by simpa [cfg] using expects) (by simpa [cfg] using other)

/-- Of a head that is not ACQUIRING the identity changes no more than what is learned. -/
theorem Part.stored_identified (state : (p.head h).state ≠ .acquiring) :
    ((p.stored h b).head h).identified (p.headCfg h) b = p.withHealth h b := by
  simp [HeadRec.identified, Part.withHealth, state]

theorem Part.healthStep_failed (block : t.health = some b) (state : (p.head h).state = .failed) :
    p.healthStep h t = (p.setHead h (p.withHealth h b)).notified (p.healthNotices h b) := by
  rw [Part.healthStep_passed block (Part.levelsStep_failed (by simpa using state)) rfl (by simp)
    (.inr (.inr (by simpa using state))), Part.stored_identified (by simp [state]), Part.stored,
    Part.setHead_setHead]

theorem Part.healthStep_inService_fault {c : HeadCause} (block : t.health = some b)
    (state : (p.head h).state = .inService)
    (fault : p.healthFaultIs h b c) :
    p.healthStep h t =
      ((p.setHead h (p.withHealth h b)).failHead h c).notified (p.healthNotices h b) := by
  have levels : (p.stored h b).levelsStep h b = (p.stored h b).failHead h c := by
    rw [Part.levelsStep_fault (p := p.stored h b) fault, Part.healthFault_inService (by simpa using state)]
  have record : ((p.stored h b).failHead h c).head h = ((p.stored h b).head h).fail c := by
    rw [Part.failHead_head, if_pos rfl]
  have identified : (((p.stored h b).head h).fail c).identified (p.headCfg h) b =
      (p.withHealth h b).fail c := by
    simp [HeadRec.identified, HeadRec.fail, Part.withHealth]
  rw [Part.healthStep_passed block levels (by simp) (by simp [record, HeadRec.fail])
    (.inr (.inr (by rw [record]; rfl))), record, identified,
    Part.failHead_setHead (by simp [Part.withHealth]), Part.stored, Part.setHead_setHead]

theorem Part.healthStep_inService_fine (block : t.health = some b) (state : (p.head h).state = .inService)
    (fine : ¬ p.levelLow h b) (quiet : b.supplyAlarm = false)
    (passes : (p.headCfg h).expected = 0 ∨ (p.headCfg h).expected = b.identity) :
    p.healthStep h t = (p.setHead h (p.withHealth h b)).notified (p.healthNotices h b) := by
  rw [Part.healthStep_passed block (Part.levelsStep_fine fine quiet) rfl (by simp)
    (passes.imp_right .inl), Part.stored_identified (by simp [state]), Part.stored, Part.setHead_setHead]

theorem Part.withHealth_of_expecting (expects : (p.headCfg h).expected ≠ 0) (b : Health) :
    p.withHealth h b = { p.head h with health := some b } := by
  simp only [Part.withHealth, expects, if_false]

theorem Part.healthStep_inService_mismatch (block : t.health = some b)
    (state : (p.head h).state = .inService) (fine : ¬ p.levelLow h b) (quiet : b.supplyAlarm = false)
    (expects : (p.headCfg h).expected ≠ 0) (other : (p.headCfg h).expected ≠ b.identity) :
    p.healthStep h t = ((p.setHead h (p.withHealth h b)).notified
      ((p.head h).temperatureNotices h b)).failHead h .identityMismatch := by
  rw [Part.healthStep_mismatch block (Part.levelsStep_fine fine quiet) rfl (.inr (by simpa using state))
    expects other, Part.withHealth_of_expecting expects, Part.stored]

/-! ### The block of an ACQUIRING head -/

/-- A fault of the block sets the run of an ACQUIRING head to 0 and clears its flag (R34). -/
theorem Part.levelsStep_acquiring_fault (state : (p.head h).state = .acquiring)
    (fault : p.levelLow h b ∨ b.supplyAlarm = true) :
    (p.stored h b).levelsStep h b =
      p.setHead h { p.head h with health := some b, run := 0, identityConfirmed := false } := by
  obtain ⟨c, judged⟩ := Part.exists_healthFaultIs fault
  rw [Part.levelsStep_fault (p := p.stored h b) judged, Part.healthFault_acquiring (by simpa using state),
    Part.stored_head, Part.stored, Part.setHead_setHead]

theorem Part.healthStep_acquiring_fault (block : t.health = some b) (state : (p.head h).state = .acquiring)
    (passes : (p.headCfg h).expected = 0 ∨ (p.headCfg h).expected = b.identity)
    (fault : p.levelLow h b ∨ b.supplyAlarm = true) :
    p.healthStep h t =
      (p.setHead h { p.withHealth h b with
        run := 0, identityConfirmed := decide ((p.headCfg h).expected ≠ 0) }).notified
          (p.healthNotices h b) := by
  rw [Part.healthStep_passed block (Part.levelsStep_acquiring_fault state fault) rfl (by simp)
    (passes.imp_right .inl), Part.head_setHead, Part.setHead_setHead]
  simp [HeadRec.identified, Part.withHealth, state]

theorem Part.healthStep_acquiring_fine (block : t.health = some b) (state : (p.head h).state = .acquiring)
    (passes : (p.headCfg h).expected = 0 ∨ (p.headCfg h).expected = b.identity)
    (fine : ¬ p.levelLow h b) (quiet : b.supplyAlarm = false) :
    p.healthStep h t =
      (p.setHead h { p.withHealth h b with
        identityConfirmed := decide ((p.headCfg h).expected ≠ 0) ||
          (p.head h).identityConfirmed }).notified (p.healthNotices h b) := by
  rw [Part.healthStep_passed block (Part.levelsStep_fine fine quiet) rfl (by simp)
    (passes.imp_right .inl), Part.stored, Part.head_setHead, Part.setHead_setHead]
  simp [HeadRec.identified, Part.withHealth, state]

/-- Another identity than the expected fails the head, whatever its levels (R37). -/
theorem Part.healthStep_acquiring_mismatch (block : t.health = some b)
    (state : (p.head h).state = .acquiring) (expects : (p.headCfg h).expected ≠ 0)
    (other : (p.headCfg h).expected ≠ b.identity) :
    p.healthStep h t =
      (p.setHead h { p.withHealth h b with
        state := .failed, lastCause := .identityMismatch, silence := .stopped, run := 0
        identityConfirmed := false }).notified
          ((p.head h).temperatureNotices h b ++ [.headState h .failed .identityMismatch]) := by
  have levels : ∃ r : HeadRec, (p.stored h b).levelsStep h b = p.setHead h r ∧ r.state = .acquiring ∧
      r.fail .identityMismatch = (p.withHealth h b).fail .identityMismatch := by
    by_cases fault : p.levelLow h b ∨ b.supplyAlarm = true
    · refine ⟨_, Part.levelsStep_acquiring_fault state fault, state, ?_⟩
      rw [Part.withHealth_of_expecting expects]
      rfl
    · obtain ⟨fine, quiet⟩ := not_or.1 fault
      refine ⟨_, Part.levelsStep_fine fine (by simpa using quiet), state, ?_⟩
      rw [Part.withHealth_of_expecting expects]
  obtain ⟨r, levels, acquiring, failed⟩ := levels
  have out : (((p.setHead h r).notified ((p.head h).temperatureNotices h b)).head h).state ≠ .inService := by
    simp [acquiring]
  rw [Part.healthStep_mismatch block levels rfl (.inl (by simpa using acquiring)) expects other,
    Part.failHead_of_out out, (Part.notified_reads _ _ _).1, Part.head_setHead, failed, Part.notified_setHead,
    Part.setHead_setHead, Part.notified_append]
  rfl

end

/-! ## The echo, the baseline and the admission (R65, R39, R40) -/

section

variable {p : Part} {l : LinkId} {h : HeadId} {t : HeadTelegram}

theorem Part.echoStep_matching {e : Echo} (echo : t.echo = some e) {c : RelayCommand}
    {rest : List RelayCommand} (queue : (p.link l).queue = c :: rest) (awaits : c.stage = .awaitingEcho)
    (station : c.station = t.station) (code : c.code = e.code) (tag : c.tag = e.tag) :
    p.echoStep l t =
      (p.setLink l { p.link l with queue := rest, timer := .stopped }).notified
        [.relayResult l c.target c.station c.code c.tag .done] := by
  simp [Part.echoStep, echo, Part.takeEcho, queue, awaits, station, code, tag, Part.completeRelay,
    relayNotice, Part.offer_eq_notified]

theorem Part.echoStep_other {e : Echo} (echo : t.echo = some e)
    (other : ∀ c rest, (p.link l).queue = c :: rest → c.stage ≠ .awaitingEcho ∨ c.station ≠ t.station ∨
      c.code ≠ e.code ∨ c.tag ≠ e.tag) : p.echoStep l t = p := by
  simp only [Part.echoStep, echo, Part.takeEcho]
  cases queue : (p.link l).queue with
  | nil => rfl
  | cons c rest =>
    dsimp only
    rw [if_neg]
    rintro ⟨awaits, station, code, tag⟩
    have mismatch := other c rest queue
    simp_all

theorem Part.admissionStep_of_other (state : (p.head h).state ≠ .acquiring) : p.admissionStep h = p := by
  unfold Part.admissionStep
  split
  · contradiction
  all_goals rfl

theorem Part.admits_iff : p.admits h = true ↔
    (p.headCfg h).acquireCount.toNat ≤ (p.head h).run ∧
      ((p.headCfg h).expected = 0 ∨ (p.head h).identityConfirmed = true) := by
  simp [Part.admits]

theorem Part.admissionStep_admits (state : (p.head h).state = .acquiring) (admits : p.admits h = true) :
    p.admissionStep h =
      ((p.setHead h { p.head h with state := .inService }).setDecoder h
        { p.decoder h with phase := .free, side := .none, rock := 0 }).notified
          [.headState h .inService (p.head h).lastCause] := by
  simp [Part.admissionStep, state, admits, Part.changeHead, Part.offerHeadState, DecoderRec.rest,
    Part.offer_eq_notified]

theorem Part.admissionStep_waits (admits : p.admits h ≠ true) : p.admissionStep h = p := by
  unfold Part.admissionStep
  split
  · exact if_neg admits
  all_goals rfl

end

end Sys2Proof.Machine
end

section
/-! SUPPORT. Telegrams by the state of their head (R24 to R41): each state's share of the sequence step and of the
change list, and the statements on telegrams of mapped heads. -/

namespace Sys2Proof.Machine

/-! ## The steps by the state of the head -/

section

variable {p : Part} {h : HeadId} {t : HeadTelegram}

theorem Part.restartMarkerStep_inService (state : (p.head h).state = .inService) :
    p.restartMarkerStep h = p.failHead h .headRestarted := by
  simp [Part.restartMarkerStep, state]

theorem Part.changeListStep_inService (state : (p.head h).state = .inService) :
    p.changeListStep h t = p.changeListInService h t := by
  simp [Part.changeListStep, state]

theorem Part.bridgedStep_inService (state : (p.head h).state = .inService) (k : Nat) :
    p.bridgedStep h k t = (p.offer (.gapBridged h k)).changeListInService h t := by
  simp [Part.bridgedStep, state]

theorem Part.sequenceLossStep_inService (state : (p.head h).state = .inService) :
    p.sequenceLossStep h = p.failHead h .sequenceLoss := by
  simp [Part.sequenceLossStep, state]

/-- A FAILED head's marker and list are dropped (R27, R32). -/
theorem Part.restartMarkerStep_failed (state : (p.head h).state = .failed) : p.restartMarkerStep h = p := by
  simp [Part.restartMarkerStep, state]

theorem Part.changeListStep_failed (state : (p.head h).state = .failed) : p.changeListStep h t = p := by
  simp [Part.changeListStep, state]

/-- The part with a head's admission run begun again (R27, R29, R30, R33). -/
def Part.runRestarted (p : Part) (h : HeadId) : Part :=
  p.setHead h { p.head h with run := 0, identityConfirmed := false }

theorem Part.restartMarkerStep_acquiring (state : (p.head h).state = .acquiring) :
    p.restartMarkerStep h = p.runRestarted h := by
  simp [Part.restartMarkerStep, state, Part.changeHead, HeadRec.restartRun, Part.runRestarted]

theorem Part.bridgedStep_acquiring (state : (p.head h).state = .acquiring) (k : Nat) :
    p.bridgedStep h k t = (p.runRestarted h).notified [.gapBridged h k] := by
  simp [Part.bridgedStep, state, Part.changeHead, HeadRec.restartRun, Part.runRestarted,
    Part.offer_eq_notified, Part.notified_setHead]

theorem Part.sequenceLossStep_acquiring (state : (p.head h).state = .acquiring) :
    p.sequenceLossStep h = p.runRestarted h := by
  simp [Part.sequenceLossStep, state, Part.changeHead, HeadRec.restartRun, Part.runRestarted]

theorem HeadTelegram.eligible_iff (t : HeadTelegram) :
    t.eligible = true ↔ t.changes = [] ∧ t.phase = .free := by
  simp [HeadTelegram.eligible]

/-- A heartbeat at FREE raises the admission run (R33). -/
theorem Part.changeListStep_eligible (state : (p.head h).state = .acquiring) (eligible : t.eligible = true) :
    p.changeListStep h t = p.setHead h { p.head h with run := min ((p.head h).run + 1) 16 } := by
  simp [Part.changeListStep, state, Part.changeHead, HeadRec.judgeRun, eligible, raiseTo]

theorem Part.changeListStep_notEligible (state : (p.head h).state = .acquiring)
    (other : t.eligible ≠ true) : p.changeListStep h t = p.runRestarted h := by
  simp [Part.changeListStep, state, Part.changeHead, HeadRec.judgeRun, other, HeadRec.restartRun,
    Part.runRestarted]

theorem Part.begun_head (p : Part) (h : HeadId) :
    (p.begun h).head h = { p.head h with
      state := .acquiring, run := 0, identityConfirmed := false
      silence := .running (p.headCfg h).silenceTimeout.toNat } :=
  p.head_setHead h _

/-- An acquisition that has just begun has no run to begin again. -/
theorem Part.begun_runRestarted (p : Part) (h : HeadId) : (p.begun h).runRestarted h = p.begun h := by
  have same : ({ (p.begun h).head h with run := 0, identityConfirmed := false } : HeadRec) =
      (p.begun h).head h := by
    rw [Part.begun_head]
  rw [Part.runRestarted, same, Part.setHead_head]

/-- The first list of an acquisition: the run is 1 after a heartbeat at FREE, and else 0 (R33, R41). -/
theorem Part.begun_changeListStep (p : Part) (h : HeadId) (t : HeadTelegram) :
    (p.begun h).changeListStep h t = (p.begun h).setHead h { (p.begun h).head h with
      run := if t.changes = [] ∧ t.phase = .free then 1 else 0 } := by
  have state : ((p.begun h).head h).state = .acquiring := by rw [Part.begun_head]
  have run : ((p.begun h).head h).run = 0 := by rw [Part.begun_head]
  by_cases eligible : t.eligible = true
  · rw [Part.changeListStep_eligible state eligible, if_pos (t.eligible_iff.1 eligible), run]
    rfl
  · have same : ({ (p.begun h).head h with run := 0 } : HeadRec) = (p.begun h).head h := by rw [Part.begun_head]
    rw [Part.changeListStep_notEligible state eligible, Part.begun_runRestarted,
      if_neg fun heartbeat => eligible (t.eligible_iff.2 heartbeat), same, Part.setHead_head]

end

/-! ## Telegrams of a head in each state -/

section

variable {p : Part} {h : HeadId} {t : HeadTelegram}

theorem Part.takeTelegram_inService (state : (p.head h).state = .inService) (l : LinkId) :
    (t.restart = true →
      p.takeTelegram l h t = (((p.heard h).failHead h .headRestarted).laterSteps l h t, false)) ∧
    (t.restart = false → p.verdict h t = .inOrder →
      p.takeTelegram l h t = (((p.heard h).changeListInService h t).laterSteps l h t, false)) ∧
    (t.restart = false → p.verdict h t = .repeated → p.takeTelegram l h t = (p.heard h, true)) ∧
    (∀ k, t.restart = false → p.verdict h t = .bridged k →
      p.takeTelegram l h t =
        ((((p.heard h).offer (.gapBridged h k)).changeListInService h t).laterSteps l h t, false)) ∧
    (t.restart = false → p.verdict h t = .lost →
      p.takeTelegram l h t = (((p.heard h).failHead h .sequenceLoss).laterSteps l h t, false)) := by
  have step := Part.silenceStep_inService state
  have still : ((p.heard h).head h).state = .inService := by simpa using state
  refine ⟨fun marked => ?_, fun unmarked verdict => ?_, fun unmarked verdict => ?_,
    fun k unmarked verdict => ?_, fun unmarked verdict => ?_⟩
  · rw [Part.takeTelegram_marked marked, step, Part.restartMarkerStep_inService still]
  · rw [Part.takeTelegram_next unmarked verdict, step, Part.changeListStep_inService still]
  · rw [Part.takeTelegram_repeated unmarked verdict, step]
  · rw [Part.takeTelegram_bridged unmarked verdict, step, Part.bridgedStep_inService still]
  · rw [Part.takeTelegram_lost unmarked verdict, step, Part.sequenceLossStep_inService still]

theorem Part.takeTelegram_acquiring (state : (p.head h).state = .acquiring) (l : LinkId) :
    (t.restart = true →
      p.takeTelegram l h t = (((p.heard h).runRestarted h).laterSteps l h t, false)) ∧
    (t.restart = false → p.verdict h t = .inOrder →
      p.takeTelegram l h t = (((p.heard h).changeListStep h t).laterSteps l h t, false)) ∧
    (t.restart = false → p.verdict h t = .repeated → p.takeTelegram l h t = (p.heard h, true)) ∧
    (∀ k, t.restart = false → p.verdict h t = .bridged k →
      p.takeTelegram l h t =
        ((((p.heard h).runRestarted h).notified [.gapBridged h k]).laterSteps l h t, false)) ∧
    (t.restart = false → p.verdict h t = .lost →
      p.takeTelegram l h t = (((p.heard h).runRestarted h).laterSteps l h t, false)) := by
  have step := Part.silenceStep_acquiring state
  have still : ((p.heard h).head h).state = .acquiring := by simpa using state
  refine ⟨fun marked => ?_, fun unmarked verdict => ?_, fun unmarked verdict => ?_,
    fun k unmarked verdict => ?_, fun unmarked verdict => ?_⟩
  · rw [Part.takeTelegram_marked marked, step, Part.restartMarkerStep_acquiring still]
  · rw [Part.takeTelegram_next unmarked verdict, step]
  · rw [Part.takeTelegram_repeated unmarked verdict, step]
  · rw [Part.takeTelegram_bridged unmarked verdict, step, Part.bridgedStep_acquiring still]
  · rw [Part.takeTelegram_lost unmarked verdict, step, Part.sequenceLossStep_acquiring still]

/-- Whatever its sequence, a FAILED head's telegram that is no repeat has its list dropped (R32). -/
theorem Part.takeTelegram_failed (state : (p.head h).state = .failed) (l : LinkId) :
    (t.restart = true → p.takeTelegram l h t = (p.laterSteps l h t, false)) ∧
    (∀ b, t.restart = false → (p.head h).baseline = some b →
      (t.sequence = b.sequence → p.takeTelegram l h t = (p, true)) ∧
      (t.sequence ≠ b.sequence → p.takeTelegram l h t = (p.laterSteps l h t, false))) := by
  have step := Part.silenceStep_failed state
  refine ⟨fun marked => ?_, fun b unmarked known => ⟨fun same => ?_, fun other => ?_⟩⟩
  · rw [Part.takeTelegram_marked marked, step, Part.restartMarkerStep_failed state]
  · have verdict := Part.verdict_failed state known t
    rw [if_pos same] at verdict
    rw [Part.takeTelegram_repeated unmarked verdict, step]
  · have verdict := Part.verdict_failed state known t
    rw [if_neg other] at verdict
    rw [Part.takeTelegram_next unmarked verdict, step, Part.changeListStep_failed state]

theorem Part.takeTelegram_absent (state : (p.head h).state = .absent) (l : LinkId) :
    (t.restart = true → p.takeTelegram l h t = ((p.begun h).laterSteps l h t, false)) ∧
    (t.restart = false →
      p.takeTelegram l h t =
        (((p.begun h).setHead h { (p.begun h).head h with
          run := if t.changes = [] ∧ t.phase = .free then 1 else 0 }).laterSteps l h t, false)) := by
  have step := Part.silenceStep_absent state
  have acquiring : ((p.begun h).head h).state = .acquiring := by rw [Part.begun_head]
  refine ⟨fun marked => ?_, fun unmarked => ?_⟩
  · rw [Part.takeTelegram_marked marked, step, Part.restartMarkerStep_acquiring acquiring,
      Part.begun_runRestarted]
  · rw [Part.takeTelegram_next unmarked (Part.verdict_absent state t), step, Part.begun_changeListStep]

end

/-! ## A mapped telegram whole -/

/-- The supervisor takes the telegram, the link counts it, and the copy is offered (R56, R60). -/
theorem Part.mappedTelegram_framed (p : Part) (l : LinkId) (h : HeadId) (t : HeadTelegram) (station : Octet)
    (body : List Octet) {taken : Part × Bool} (took : taken = p.takeTelegram l h t) :
    p.mappedTelegram l h t (framed station 0x01 body) =
      (taken.1.setLink l
        (if taken.2 then { taken.1.link l with repeats := min ((taken.1.link l).repeats + 1) 65535 }
        else { taken.1.link l with run := 0 })).copied l h station body := by
  subst took
  have cfg : (p.takeTelegram l h t).1.headCfg h = p.headCfg h := by simp
  unfold Part.mappedTelegram Part.copied
  dsimp only
  rw [Part.setLink_headCfg, cfg]
  cases (p.takeTelegram l h t).2 <;> rfl

/-- A heartbeat in order of an IN_SERVICE head, at its decoder's phase, is heard and taken as the baseline. -/
theorem Part.takeTelegram_heartbeat {p : Part} {h : HeadId} {t : HeadTelegram} {b : Baseline}
    (service : (p.head h).state = .inService) (known : (p.head h).baseline = some b)
    (unmarked : t.restart = false) (next : t.sequence = b.sequence + 1) (changes : t.changes = [])
    (noHealth : t.health = none) (noEcho : t.echo = none) (phase : (p.decoder h).phase = t.phase)
    (l : LinkId) : p.takeTelegram l h t = ((p.heard h).baselineStep h t, false) := by
  have delivered : (p.heard h).deliver h t.changes = (p.heard h, false) := by rw [changes, Part.deliver]
  have still : ((p.heard h).head h).state = .inService := by simpa using service
  obtain ⟨-, inOrder, -⟩ := Part.takeTelegram_inService (t := t) service l
  rw [inOrder unmarked ((Part.verdict_heard (.inr service) known t).trans (judgeSequence_inOrder next)),
    Part.changeListInService_of_delivered delivered phase, Part.laterSteps_plain still noHealth noEcho]

/-- Settles O16: the telegram as one event, then each step by the state of the head, and the heartbeat whole. -/
theorem heartbeatInOrderIsTaken : Obligations.HeartbeatInOrderIsTaken := by
  refine ⟨?_, ?_, fun p l h t state => Part.takeTelegram_failed state l, ?_, ?_, ?_, ?_⟩
  · intro s l h polarity rx station body t taken hears nonempty fits parsed took
    have whole := Part.mappedTelegram_framed (s.setLinkMode l (.locked polarity .wait)) l h t station body took
    rw [exec_headStatusTelegram_mapped hears nonempty fits parsed, whole]
  · intro p l h t state
    obtain ⟨marked, inOrder, repeated, bridged, lost⟩ := Part.takeTelegram_inService (t := t) state l
    refine ⟨marked, fun b unmarked known => ?_, fun q delivered => ⟨fun agrees => ?_, fun differs => ?_⟩⟩
    · have verdict := Part.verdict_heard (.inr state) known t
      refine ⟨fun next => ?_, fun same => ?_, fun notNext other => ⟨fun seen => ?_, fun unseen => ?_⟩⟩
      · exact inOrder unmarked (verdict.trans (judgeSequence_inOrder next))
      · exact repeated unmarked (verdict.trans (judgeSequence_repeated same))
      · exact bridged _ unmarked (verdict.trans (judgeSequence_bridged notNext other seen))
      · exact lost unmarked (verdict.trans (judgeSequence_lost notNext other unseen))
    · exact Part.changeListInService_of_delivered delivered agrees
    · rw [Part.changeListInService, delivered]
      exact if_neg differs
  · exact fun p l h t => ⟨rfl, fun block => by rw [Part.healthStep, block], rfl, Part.admissionStep_of_other⟩
  · intro p h t b block
    refine ⟨Part.healthStep_failed block, fun state => ⟨fun c => Part.healthStep_inService_fault block state,
      fun fine quiet => ⟨Part.healthStep_inService_fine block state fine quiet,
        Part.healthStep_inService_mismatch block state fine quiet⟩⟩⟩
  · intro p l t
    refine ⟨fun echo => by rw [Part.echoStep, echo], fun e echo => ⟨fun c rest => ?_, ?_⟩⟩
    · exact Part.echoStep_matching echo
    · exact Part.echoStep_other echo
  · intro s l h polarity rx station body t b hears nonempty fits parsed unmarked changes noHealth noEcho
      service known next phase
    have taken := Part.takeTelegram_heartbeat (p := s.setLinkMode l (.locked polarity .wait)) service known
      unmarked next changes noHealth noEcho phase l
    rw [exec_headStatusTelegram_mapped hears nonempty fits parsed, Part.mappedTelegram_of_taken taken]
    simp [Part.heard, Part.baselineStep, Part.changeHead, Part.setLinkMode, Part.setHead, Part.setLink,
      Part.link, Part.head, Part.headCfg, Part.activeTable, LinkRec.afterTaken]

/-! ## The first telegram of an acquisition whole -/

/-- With no health block and no echo, and a run that does not reach the acquire count, the later steps take the
baseline alone. -/
theorem Part.laterSteps_waiting {p : Part} {h : HeadId} {t : HeadTelegram} (noHealth : t.health = none)
    (noEcho : t.echo = none) (short : (p.head h).run < (p.headCfg h).acquireCount.toNat) (l : LinkId) :
    p.laterSteps l h t = p.baselineStep h t := by
  have waits : (p.baselineStep h t).admits h ≠ true := by
    rw [ne_eq, Part.admits_iff, Part.baselineStep, Part.changeHead, Part.head_setHead, Part.setHead_headCfg]
    exact fun admits => absurd admits.1 (Nat.not_le.2 short)
  rw [Part.laterSteps, Part.healthStep, noHealth, Part.echoStep, noEcho]
  exact Part.admissionStep_waits waits

/-- The first telegram of an acquisition starts the run with 0 or 1, below every acquire count of 2 or more. -/
theorem Part.takeTelegram_first {p : Part} {h : HeadId} {t : HeadTelegram} (absent : (p.head h).state = .absent)
    (unmarked : t.restart = false) (noHealth : t.health = none) (noEcho : t.echo = none)
    (count : 2 ≤ (p.headCfg h).acquireCount.toNat) (l : LinkId) :
    p.takeTelegram l h t =
      (((p.begun h).setHead h { (p.begun h).head h with
        run := if t.changes = [] ∧ t.phase = .free then 1 else 0 }).baselineStep h t, false) := by
  obtain ⟨-, first⟩ := Part.takeTelegram_absent (t := t) absent l
  rw [first unmarked, Part.laterSteps_waiting noHealth noEcho]
  have cfg : (p.begun h).headCfg h = p.headCfg h := rfl
  rw [Part.head_setHead, Part.setHead_headCfg, cfg]
  dsimp only
  split <;> omega

/-- Settles O17: each step of a telegram of a head ABSENT or ACQUIRING, and the first telegram whole. -/
theorem acquisitionBegins : Obligations.AcquisitionBegins := by
  refine ⟨?_, ?_, ?_, fun p h state => ⟨fun reached known => ?_, fun short => ?_⟩, ?_⟩
  · rintro p _ l h t state rfl
    exact Part.takeTelegram_absent state l
  · rintro p _ l h t state rfl
    obtain ⟨marked, inOrder, repeated, bridged, lost⟩ := Part.takeTelegram_acquiring (t := t) state l
    have heard : ((p.heard h).head h).state = .acquiring := by simpa using state
    refine ⟨marked, fun b unmarked known => ?_⟩
    have verdict := Part.verdict_heard (.inl state) known t
    refine ⟨fun next => ⟨fun changes phase => ?_, fun other => ?_⟩, fun same => ?_,
      fun notNext other => ⟨fun seen => ?_, fun unseen => ?_⟩⟩
    · rw [inOrder unmarked (verdict.trans (judgeSequence_inOrder next)),
        Part.changeListStep_eligible heard (t.eligible_iff.2 ⟨changes, phase⟩), Part.heard_head]
    · have notEligible : t.eligible ≠ true := fun eligible => by
        obtain ⟨changes, phase⟩ := t.eligible_iff.1 eligible
        exact other.elim (absurd changes) (absurd phase)
      rw [inOrder unmarked (verdict.trans (judgeSequence_inOrder next)),
        Part.changeListStep_notEligible heard notEligible]
      rfl
    · exact repeated unmarked (verdict.trans (judgeSequence_repeated same))
    · exact bridged _ unmarked (verdict.trans (judgeSequence_bridged notNext other seen))
    · exact lost unmarked (verdict.trans (judgeSequence_lost notNext other unseen))
  · intro p h t b block state
    refine ⟨fun passes => ⟨Part.healthStep_acquiring_fault block state passes,
      Part.healthStep_acquiring_fine block state passes⟩, Part.healthStep_acquiring_mismatch block state⟩
  · exact Part.admissionStep_admits state (Part.admits_iff.2 ⟨reached, known⟩)
  · refine Part.admissionStep_waits fun admits => ?_
    obtain ⟨reached, known⟩ := Part.admits_iff.1 admits
    rcases short with short | ⟨expects, unconfirmed⟩
    · exact absurd reached (Nat.not_le.2 short)
    · exact known.elim expects (by simp [unconfirmed])
  · intro s l h polarity rx station body t hears nonempty fits parsed unmarked noHealth noEcho absent count
    have taken := Part.takeTelegram_first (p := s.setLinkMode l (.locked polarity .wait)) absent unmarked
      noHealth noEcho count l
    rw [exec_headStatusTelegram_mapped hears nonempty fits parsed, Part.mappedTelegram_of_taken taken,
      Part.begun_head]
    simp [Part.begun, Part.notified, Part.baselineStep, Part.changeHead, Part.setLinkMode, Part.setHead,
      Part.setLink, Part.setReport, Part.link, Part.head, Part.headCfg, Part.activeTable, LinkRec.afterTaken]

end Sys2Proof.Machine
end

section
/-! SUPPORT. The relay queues (R62, R64, R66): what a link's record must be, the operations that keep it so, and
that every event of the part is made of them. -/

namespace Sys2Proof.Machine

/-! ## The law of a link's record -/

/-- The commands behind the front are WAITING, and the relay timer runs exactly while the front command is
AWAITING_ECHO (R62, R64). -/
def LinkRec.RelaySound (k : LinkRec) : Prop :=
  (∀ c ∈ k.queue.tail, c.stage = .waiting) ∧
    (k.timer ≠ .stopped ↔ ∃ c, k.queue.head? = some c ∧ c.stage = .awaitingEcho)

theorem Part.relaysSound_iff (p : Part) : p.RelaysSound ↔ ∀ l, (p.link l).RelaySound := Iff.rfl

/-- An empty queue, with the timer stopped. -/
theorem LinkRec.RelaySound.of_empty {k : LinkRec} (empty : k.queue = []) (stopped : k.timer = .stopped) :
    k.RelaySound := by
  simp [LinkRec.RelaySound, empty, stopped]

/-- A front command that awaits no echo, with the timer stopped and WAITING commands behind. -/
theorem LinkRec.RelaySound.of_front {k : LinkRec} {c : RelayCommand} {rest : List RelayCommand}
    (queue : k.queue = c :: rest) (stopped : k.timer = .stopped) (front : c.stage ≠ .awaitingEcho)
    (behind : ∀ d ∈ rest, d.stage = .waiting) : k.RelaySound := by
  simpa [LinkRec.RelaySound, queue, stopped, front] using behind

/-- WAITING commands alone, with the timer stopped. -/
theorem LinkRec.RelaySound.of_waiting {k : LinkRec} (waiting : ∀ d ∈ k.queue, d.stage = .waiting)
    (stopped : k.timer = .stopped) : k.RelaySound := by
  cases queue : k.queue with
  | nil => exact .of_empty queue stopped
  | cons c rest =>
    rw [queue, List.forall_mem_cons] at waiting
    obtain ⟨front, behind⟩ := waiting
    exact .of_front queue stopped (by simp [front]) behind

section

variable {k k' : LinkRec} {c : RelayCommand} {rest : List RelayCommand}

/-- The law reads the queue and the timer alone. -/
theorem LinkRec.RelaySound.same (sound : k.RelaySound) (queue : k'.queue = k.queue)
    (timer : k'.timer = k.timer) : k'.RelaySound := by
  unfold LinkRec.RelaySound at *
  rwa [queue, timer]

theorem LinkRec.RelaySound.behind (sound : k.RelaySound) (queue : k.queue = c :: rest) :
    ∀ d ∈ rest, d.stage = .waiting := by
  simpa [queue] using sound.1

/-- The timer is stopped while the front command awaits no echo. -/
theorem LinkRec.RelaySound.stopped (sound : k.RelaySound) (queue : k.queue = c :: rest)
    (front : c.stage ≠ .awaitingEcho) : k.timer = .stopped := by
  simpa [queue, front] using sound.2

/-- A timer that runs has a front command that awaits its echo, with WAITING commands behind. -/
theorem LinkRec.RelaySound.awaited (sound : k.RelaySound) (runs : k.timer ≠ .stopped) :
    ∃ c rest, k.queue = c :: rest ∧ c.stage = .awaitingEcho ∧ ∀ d ∈ rest, d.stage = .waiting := by
  obtain ⟨c, front, awaits⟩ := sound.2.1 runs
  obtain ⟨rest, queue⟩ := List.head?_eq_some_iff.1 front
  exact ⟨c, rest, queue, awaits, sound.behind queue⟩

/-- A new command joins in WAITING at the back (R63). -/
theorem LinkRec.RelaySound.join (sound : k.RelaySound) (waiting : c.stage = .waiting)
    (queue : k'.queue = k.queue ++ [c]) (timer : k'.timer = k.timer) : k'.RelaySound := by
  unfold LinkRec.RelaySound at *
  rw [queue, timer]
  cases old : k.queue with
  | nil => simpa [old, waiting] using sound
  | cons d rest =>
    obtain ⟨behind, runs⟩ := sound
    rw [old] at behind runs
    refine ⟨fun e mem => ?_, runs⟩
    rcases List.mem_append.1 mem with mem | mem
    · exact behind e mem
    · rwa [List.mem_singleton.1 mem]

/-- The commands that a test picks leave; a front command that leaves stops the timer (R67). -/
theorem LinkRec.RelaySound.cancelled (sound : k.RelaySound) (picked : RelayCommand → Bool)
    (queue : k'.queue = k.queue.filter fun c => !picked c)
    (timer : k'.timer = match k.queue with
      | c :: _ => if picked c then .stopped else k.timer
      | [] => k.timer) : k'.RelaySound := by
  cases old : k.queue with
  | nil =>
    rw [old] at queue timer
    exact sound.same (queue.trans old.symm) timer
  | cons c rest =>
    have behind := sound.behind old
    rw [old] at queue timer
    by_cases picks : picked c = true
    · rw [List.filter_cons_of_neg (by simp [picks])] at queue
      refine .of_waiting (fun d mem => ?_) (timer.trans (if_pos picks))
      rw [queue] at mem
      exact behind d (List.mem_of_mem_filter mem)
    · rw [List.filter_cons_of_pos (by simp [picks])] at queue
      replace timer : k'.timer = k.timer := timer.trans (if_neg picks)
      obtain ⟨-, runs⟩ := sound
      unfold LinkRec.RelaySound
      rw [queue, timer]
      refine ⟨fun d mem => behind d (List.mem_of_mem_filter mem), ?_⟩
      rwa [old] at runs

end

/-! ## Writes of one link -/

namespace Part.RelaysSound

variable {p q : Part}

theorem of_links (sound : p.RelaysSound) (links : q.links = p.links) : q.RelaysSound := by
  intro l
  rw [Part.link, links]
  exact sound l

theorem setLink (sound : p.RelaysSound) {l : LinkId} {k : LinkRec} (record : k.RelaySound) :
    (p.setLink l k).RelaysSound := by
  refine (p.setLink l k).relaysSound_iff.2 fun m => ?_
  rw [Part.link_setLink_eq]
  split
  · exact record
  · exact sound m

/-- A write that leaves the queue and the timer of the link. -/
theorem setLink_same (sound : p.RelaysSound) {l : LinkId} {k : LinkRec}
    (queue : k.queue = (p.link l).queue) (timer : k.timer = (p.link l).timer) :
    (p.setLink l k).RelaysSound :=
  sound.setLink (LinkRec.RelaySound.same (sound l) queue timer)

/-! ## Relay queues -/

theorem completeRelay (sound : p.RelaysSound) (l : LinkId) (r : RelayResult) :
    (p.completeRelay l r).RelaysSound := by
  unfold Part.completeRelay
  split
  · rename_i empty
    exact sound.setLink (.of_empty empty rfl)
  · rename_i c rest queue
    have shifted := sound.setLink (l := l) (k := { p.link l with queue := rest, timer := .stopped })
      (.of_waiting (LinkRec.RelaySound.behind (sound l) queue) rfl)
    exact shifted.of_links rfl

theorem cancelRelays (sound : p.RelaysSound) (l : LinkId) (picked : RelayCommand → Bool) :
    (p.cancelRelays l picked).RelaysSound := by
  refine (p.cancelRelays l picked).relaysSound_iff.2 fun m => ?_
  rw [Part.cancelRelays_link]
  split
  · exact LinkRec.RelaySound.cancelled (sound l) picked rfl rfl
  · exact sound m

theorem relayStart (sound : p.RelaysSound) (l : LinkId) : (p.relayStart l).RelaysSound := by
  unfold Part.relayStart
  dsimp only
  split
  · rename_i ready
    obtain ⟨-, -, c, rest, queue, waiting⟩ := (LinkRec.relayReady_iff _).1 ready
    rw [queue]
    have stopped := LinkRec.RelaySound.stopped (sound l) queue (by simp [waiting])
    exact sound.setLink
      (.of_front rfl stopped (by simp) (LinkRec.RelaySound.behind (sound l) queue))
  · exact sound

/-- At the last octet the timer starts with the wait for the echo, or a broadcast leaves the queue (R64). -/
theorem relaySent (sound : p.RelaysSound) (l : LinkId) : (p.relaySent l).RelaysSound := by
  unfold Part.relaySent
  dsimp only
  split
  · exact sound
  · rename_i c rest queue
    split
    · split
      · refine sound.setLink ⟨LinkRec.RelaySound.behind (sound l) queue, ?_⟩
        simp
      · exact sound.completeRelay l _
    · exact sound

theorem relayEnd (sound : p.RelaysSound) (l : LinkId) : (p.relayEnd l).RelaysSound := by
  obtain ⟨queue, timer, -⟩ := LinkRec.MayReceive.withRx (p.link l) .hunt
  unfold Part.relayEnd
  dsimp only
  split
  · exact sound
  · have idle : (p.setLink l { (p.link l).withRx .hunt with transmitter := none }).RelaysSound :=
      sound.setLink_same queue timer
    exact idle.relaySent l

theorem expire (sound : p.RelaysSound) (t : TimerId) : (p.expire t).RelaysSound := by
  cases t with
  | relay l =>
    unfold Part.expire Part.relayExpiry
    dsimp only
    split
    · exact sound
    · exact sound.completeRelay l _
  | silence | confirm | holdLimit | reportCycle | store => exact sound.of_links (by simp [Part.expire])

/-- A millisecond stops no relay timer and starts none. -/
theorem countDown (sound : p.RelaysSound) : p.countDown.RelaysSound := by
  intro l
  obtain ⟨behind, runs⟩ := sound l
  rw [Part.countDown_link, Timer.countDown_ne_stopped]
  exact ⟨behind, runs⟩

/-! ## The head links -/

theorem keptByTelegramSteps (h : HeadId) : KeptByTelegramSteps Part.RelaysSound h where
  setHead sound _ := sound.of_links rfl
  setDecoder _ sound := sound.of_links rfl
  offer _ sound := sound.of_links rfl
  failHead _ sound := sound.of_links (by simp)
  wheelEvent _ sound := sound.of_links (by simp)
  completeRelay l r sound := sound.completeRelay l r

theorem linkLoss (sound : p.RelaysSound) (l : LinkId) : (p.linkLoss l).RelaysSound := by
  have searching : (p.setLink l { (p.link l).toSearch with latch := true }).RelaysSound :=
    sound.setLink_same rfl rfl
  have lost := searching.of_links (q := ((p.setLink l { (p.link l).toSearch with latch := true }).offer
    (.linkState l .search (p.link l).polarityHeld)).loseHeads l) (by simp)
  exact lost.cancelRelays l _

theorem keptByLinkEvents : KeptByLinkEvents Part.RelaysSound where
  setLink sound may := sound.setLink_same may.queue may.timer
  offer _ sound := sound.of_links rfl
  setMirrors _ sound := sound.of_links rfl
  linkLoss sound := sound.linkLoss _
  takeTelegram t sound _ _ := (keptByTelegramSteps _).takeTelegram _ t sound

/-! ## Requests -/

theorem linkQueryRequest (sound : p.RelaysSound) (body : List Octet) :
    (linkQueryRequest body p).1.RelaysSound := by
  unfold Machine.linkQueryRequest
  split
  · exact sound
  · exact sound.setLink_same rfl rfl

theorem headRelayRequest (sound : p.RelaysSound) (body : List Octet) :
    (headRelayRequest body p).1.RelaysSound := by
  unfold Machine.headRelayRequest
  dsimp only
  generalize (if field body 3 = 1 then RelayCode.restart else .healthRequest) = code
  split
  · exact sound
  · rename_i a _
    split_ifs
    · exact sound
    · exact sound
    · exact sound
    · exact sound.setLink (LinkRec.RelaySound.join (sound a.link) rfl rfl rfl)

theorem activateRelays (sound : p.RelaysSound) (old new : Table) : (p.activateRelays old new).RelaysSound :=
  foldl_inv Part.RelaysSound _ (fun _ l sound => sound.cancelRelays l _) _ p sound

end Part.RelaysSound

/-- The queue of a link that an activation disables is cancelled whole (R136). -/
theorem Part.activateRelays_queue_of_disabled {old new : Table} {l : LinkId}
    (disabled : linkDisabled old new l = true) (p : Part) :
    ((p.activateRelays old new).link l).queue = [] := by
  have each := Part.foldl_link (fun q l => q.cancelRelays l (relayCancelled old new l))
    (fun l k => { k with
      queue := k.queue.filter fun c => !relayCancelled old new l c
      timer :=
        match k.queue with
        | c :: _ => if relayCancelled old new l c then .stopped else k.timer
        | [] => k.timer })
    (fun q l m => q.cancelRelays_link l m _) (List.finRange 4) (List.nodup_finRange 4) p l
  rw [Part.activateRelays, each, if_pos (List.mem_finRange l)]
  simp [relayCancelled, disabled]

namespace Part.RelaysSound

variable {p : Part}

/-- A link that goes to OFF has lost its commands before, so that its timer stops over an empty queue (R58,
R136). -/
theorem activateLinks (sound : p.RelaysSound) {old new : Table}
    (cancelled : ∀ l, linkDisabled old new l = true → (p.link l).queue = []) :
    (p.activateLinks old new).RelaysSound := by
  refine (p.activateLinks old new).relaysSound_iff.2 fun l => ?_
  rw [Part.activateLinks_link]
  split_ifs with enabled disabled
  · exact LinkRec.RelaySound.same (sound l) rfl rfl
  · exact .of_empty (cancelled l disabled) rfl
  · exact sound l

theorem activateHeads (sound : p.RelaysSound) (old new : Table) : (p.activateHeads old new).RelaysSound :=
  sound.of_links (by simp)

theorem activateSections (sound : p.RelaysSound) (old new : Table) :
    (p.activateSections old new).RelaysSound :=
  sound.of_links (by simp)

theorem activateRest (sound : p.RelaysSound) (new : ActiveTable) (disturbed : Nat) :
    (p.activateRest new disturbed).RelaysSound :=
  sound.of_links (by simp)

theorem activate (sound : p.RelaysSound) (crc : Crc) : (p.activate crc).RelaysSound := by
  have installed : (p.setTables { p.tables with
      active := some { table := p.tables.staging, crc := crc } }).RelaysSound := sound.of_links rfl
  refine Part.RelaysSound.activateRest ?_ _ _
  refine ((((installed.activateHeads _ _).activateRelays _ _).activateSections _ _).activateLinks
    fun l disabled => ?_)
  simpa using Part.activateRelays_queue_of_disabled disabled _

theorem tableActivateRequest (sound : p.RelaysSound) (body : List Octet) :
    (tableActivateRequest body p).1.RelaysSound := by
  unfold Machine.tableActivateRequest
  split
  · exact sound
  · split
    · exact sound.activate _
    · exact sound

/-- A request of any owner: those on relay queues and on link records by their own lemmas, every other because
it changes no link. -/
theorem request : ∀ owner ∈ requestOwners, ∀ body p, p.RelaysSound → (owner body p).1.RelaysSound := by
  have plain {owner : List Octet → Part → Part × Answer}
      (kept : ∀ body p, (owner body p).1.links = p.links) :
      ∀ body p, p.RelaysSound → (owner body p).1.RelaysSound :=
    fun body p sound => sound.of_links (kept body p)
  have halt (body : List Octet) (p : Part) : (haltRequest body p).1.links = p.links := by
    unfold haltRequest
    split
    · exact foldl_keeps Part.links (fun q i => q.disturbUnlessDisturbed i .halt) (fun q i => by simp) _ _
    · rfl
  simp only [requestOwners, List.forall_mem_cons]
  refine ⟨plain fun _ _ => rfl, plain ?_, plain ?_, plain halt, plain ?_, plain ?_, plain ?_, plain ?_,
    fun body _ sound => sound.linkQueryRequest body, fun body _ sound => sound.headRelayRequest body,
    plain ?_, plain ?_, plain ?_, plain ?_, fun body _ sound => sound.tableActivateRequest body,
    plain ?_, plain ?_, plain ?_, plain fun _ _ => rfl, plain ?_, plain fun _ _ => rfl,
    List.forall_mem_nil _⟩
  all_goals
    intro body p
    simp only [sectionQueryRequest, startRequest, sectionResetRequest, headQueryRequest, headReleaseRequest,
      headAdoptRequest, tableWriteRequest, tableReadRequest, tableCopyRequest, tableCheckRequest,
      storeRequest, commissionRequest, eraseStoreRequest, proceedRequest]
    (repeat' split) <;> simp

/-! ## Full reset, start-up and every event -/

theorem fullReset (p : Part) : p.fullReset.RelaysSound := by
  intro l
  simp [Part.link, Part.fullReset, Part.resetValues, LinkRec.reset]

theorem startUpLoad (sound : p.RelaysSound) (body : ImageBody) : (p.startUpLoad body).RelaysSound := by
  have disturbed := foldl_inv Part.RelaysSound (fun q i => q.disturb i .startUp)
    (fun _ _ sound => sound.of_links (by simp)) body.table.presentSections _
    (sound.of_links (q := p.setTables
      { active := some { table := body.table, crc := body.crc }, staging := body.table
        stagingState := .checked body.crc, lastCheck := .pass body.crc }) rfl)
  have evaluated := disturbed.of_links (q := Part.setEvaluator _
    (if body.table.global.startMode = 1 then .running else .halted)) rfl
  have linked := foldl_inv Part.RelaysSound
    (fun q l => if body.table.global.enabled[l] then q.setLink l (q.link l).toSearch else q)
    (fun _ l sound => by
      split
      · exact sound.setLink_same rfl rfl
      · exact sound) (List.finRange 4) _ evaluated
  exact linked.of_links rfl

theorem startUp (sound : p.RelaysSound) : p.startUp.RelaysSound := by
  have read (state : ImageState) : (p.setImage { p.image with state := state }).RelaysSound :=
    sound.of_links rfl
  unfold Part.startUp
  dsimp only
  split
  · exact (read _).startUpLoad _
  · exact read _

theorem keptUntilStartUp : KeptUntilStartUp Part.RelaysSound where
  link := keptByLinkEvents
  setPins _ sound := sound.of_links rfl
  fullReset _ := fullReset _
  setCount _ sound := sound.of_links rfl
  request := request
  countDown sound := sound.countDown
  expire t sound := sound.expire t
  relayStart l sound := sound.relayStart l
  relayEnd l sound := sound.relayEnd l
  writeCompletion _ sound := sound.of_links (by simp)
  endTransmission sound := sound.of_links (by simp)
  afterEvent sound := sound.of_links (by simp)

end Part.RelaysSound

/-- Settles O52: every event is made of writes that keep each link's queue and timer sound, and a start-up
leaves the relay path at its reset values. -/
theorem stepsKeepRelaysSound : Obligations.StepsKeepRelaysSound := by
  intro s t sound ran
  exact (Part.RelaysSound.keptUntilStartUp.keptByEvents fun _ reset => reset.startUp).step sound ran

end Sys2Proof.Machine
end

section
/-! SUPPORT. Relay telegrams (R61, R64, R66): their start, their last octet, and the expiry of the relay timer. -/

namespace Sys2Proof.Machine

/-! ## Running a command -/

/-- An awake part takes the event, and then ends it (R155). -/
theorem State.next_unlessReset_awake {s : State} (awake : s.awake) (f : Part → Part) :
    s.next (s.toPart.unlessReset f) = .next (State.afterEvent { s with toPart := f s.toPart }) := by
  rw [Part.unlessReset_awake awake, State.next_eq]

/-! ## The start of a relay telegram (R61) -/

section

variable {p : Part} {l : LinkId} {polarity : Polarity} {rx : Rx} {c : RelayCommand} {rest : List RelayCommand}

theorem Part.relayStart_of_mayTransmit (idle : (p.link l).transmitter = none)
    (mode : (p.link l).mode = .locked polarity rx) (noFrame : ∀ octets, rx ≠ .frame octets)
    (queue : (p.link l).queue = c :: rest) (waiting : c.stage = .waiting) :
    p.relayStart l = p.setLink l { p.link l with
      transmitter := some (relayTelegram polarity c)
      queue := { c with stage := .transmitting } :: rest } := by
  have ready : (p.link l).relayReady = true :=
    (LinkRec.relayReady_iff _).2 ⟨idle, ⟨polarity, rx, mode, noFrame⟩, c, rest, queue, waiting⟩
  have held : (p.link l).polarityHeld = polarity := by simp [LinkRec.polarityHeld, mode]
  simp only [Part.relayStart, ready, if_true, queue, held]

theorem Part.relayStart_of_not_mayTransmit (may : ¬ (p.link l).mayTransmit) : p.relayStart l = p :=
  if_neg fun ready => may ((LinkRec.relayReady_iff _).1 ready)

/-! ## Its last octet (R61, R64) -/

/-- The receive condition of a LOCKED link, as one update of the mode. -/
theorem LinkRec.withRx_eq (k : LinkRec) (rx : Rx) :
    k.withRx rx = { k with mode := (k.withRx rx).mode } := by
  unfold LinkRec.withRx
  cases k.mode <;> rfl

theorem Part.relayEnd_of_idle (idle : (p.link l).transmitter = none) : p.relayEnd l = p := by
  simp [Part.relayEnd, idle]

/-- The part whose transmitter on a link has sent its last octet, before the command moves on (R61). -/
def Part.fallenSilent (p : Part) (l : LinkId) : Part :=
  p.setLink l { p.link l with mode := ((p.link l).withRx .hunt).mode, transmitter := none }

@[simp] theorem Part.fallenSilent_link (p : Part) (l : LinkId) :
    (p.fallenSilent l).link l =
      { p.link l with mode := ((p.link l).withRx .hunt).mode, transmitter := none } :=
  p.link_setLink l _

theorem Part.relayEnd_of_busy {octets : List Octet} (busy : (p.link l).transmitter = some octets) :
    p.relayEnd l = (p.fallenSilent l).relaySent l := by
  simp only [Part.relayEnd, busy, Part.fallenSilent]
  rw [LinkRec.withRx_eq]

theorem Part.relaySent_of_head {h : HeadId} (queue : (p.link l).queue = c :: rest)
    (sent : c.stage = .transmitting) (target : c.target = .head h) :
    p.relaySent l = p.setLink l { p.link l with
      queue := { c with stage := .awaitingEcho } :: rest, timer := .running 200 } := by
  simp [Part.relaySent, queue, sent, target, echoWait]

theorem Part.completeRelay_of_cons (queue : (p.link l).queue = c :: rest) (r : RelayResult) :
    p.completeRelay l r =
      (p.setLink l { p.link l with queue := rest, timer := .stopped }).offer (relayNotice l c r) := by
  simp [Part.completeRelay, queue]

theorem Part.relaySent_of_broadcast (queue : (p.link l).queue = c :: rest) (sent : c.stage = .transmitting)
    (target : c.target = .broadcast) :
    p.relaySent l = (p.setLink l { p.link l with queue := rest, timer := .stopped }).offer
      (relayNotice l c .sent) := by
  rw [← Part.completeRelay_of_cons queue]
  simp [Part.relaySent, queue, sent, target]

/-- A command that was cancelled meanwhile is gone, and nothing is done for it (R64). -/
theorem Part.relaySent_of_cancelled
    (gone : ∀ c rest, (p.link l).queue = c :: rest → c.stage ≠ .transmitting) : p.relaySent l = p := by
  unfold Part.relaySent
  dsimp only
  split
  · rfl
  · rename_i c rest queue
    exact if_neg (gone c rest queue)

end

/-- Settles O27: the start by R61's four conditions, and the last octet by what stands at the queue's front. -/
theorem relayTelegramsGoOut : Obligations.RelayTelegramsGoOut := by
  have start {s : State} (l : LinkId) (awake : s.awake) : exec (.relayTransmissionStart l) s =
      .next (State.afterEvent { s with toPart := s.relayStart l }) :=
    State.next_unlessReset_awake awake fun p => p.relayStart l
  have ends {s : State} (l : LinkId) (awake : s.awake) : exec (.relayTransmissionEnd l) s =
      .next (State.afterEvent { s with toPart := s.relayEnd l }) :=
    State.next_unlessReset_awake awake fun p => p.relayEnd l
  refine ⟨?_, ?_, ?_, fun s l awake idle => by rw [ends l awake, Part.relayEnd_of_idle idle]⟩
  · intro s l polarity rx c rest awake idle mode noFrame queue waiting
    rw [start l awake, Part.relayStart_of_mayTransmit idle mode noFrame queue waiting]
    rfl
  · intro s l awake may
    have may : ¬ (s.link l).mayTransmit := by
      rintro ⟨idle, ⟨polarity, rx, mode, noFrame⟩, c, rest, queue, waiting⟩
      rcases may with busy | framed | notWaiting
      · exact busy idle
      · obtain ⟨octets, frame⟩ := framed polarity rx mode
        exact noFrame octets frame
      · exact notWaiting c rest queue waiting
    rw [start l awake, Part.relayStart_of_not_mayTransmit may]
  · intro s l octets mode awake busy received
    have hunts : ((s.link l).withRx .hunt).mode = mode := by
      rw [received, LinkRec.withRx]
      cases was : (s.link l).mode <;> simp [was]
    have silent : s.fallenSilent l = s.setLink l { s.link l with mode := mode, transmitter := none } := by
      rw [Part.fallenSilent, hunts]
    have queued : ((s.fallenSilent l).link l).queue = (s.link l).queue := by simp
    rw [ends l awake, Part.relayEnd_of_busy busy]
    refine ⟨fun c rest h queue sent target => ?_, fun c rest queue sent target => ?_, fun gone => ?_⟩
    · rw [Part.relaySent_of_head (queued.trans queue) sent target, silent, Part.link_setLink,
        Part.setLink_setLink]
    · rw [Part.relaySent_of_broadcast (queued.trans queue) sent target, silent, Part.link_setLink,
        Part.setLink_setLink, relayNotice, target]
      rfl
    · rw [Part.relaySent_of_cancelled (by rwa [queued]), silent]

/-! ## The relay timer (R66) -/

theorem Part.relayExpiry_of_running {p : Part} {l : LinkId} (runs : (p.link l).timer ≠ .stopped) :
    p.relayExpiry l = p.completeRelay l .noEcho := by
  unfold Part.relayExpiry
  split
  · contradiction
  · rfl

/-- Settles O28: no expiry of a stopped timer, the front command's end with NO_ECHO, what a sound queue then
holds, and the links that a head's failure leaves as they are. -/
theorem relayTimerExpires : Obligations.RelayTimerExpires := by
  have expires {s : State} (l : LinkId) (awake : s.awake) : exec (.relayTimerExpiry l) s =
      .next (State.afterEvent { s with toPart := s.relayExpiry l }) :=
    State.next_unlessReset_awake awake fun p => p.relayExpiry l
  refine ⟨fun s l awake stopped => ?_, fun s l c rest awake runs queue => ?_,
    fun s l sound runs => LinkRec.RelaySound.awaited (sound l) runs, fun p h cause => by simp⟩
  · rw [expires l awake, show s.relayExpiry l = s.toPart from Part.expire_of_stopped (t := .relay l) stopped]
  · rw [expires l awake, Part.relayExpiry_of_running runs, Part.completeRelay_of_cons queue]
    rfl

end Sys2Proof.Machine
end

section
/-! SUPPORT. The receivers command by command (R50 to R58, R141): what the octets and gaps of each reception
command come to on the count line, on a LOCKED head link, on one in SEARCH, and on one that takes nothing. -/

namespace Sys2Proof.Machine

/-! ## Running a reception command -/

/-- Octets whose last ends an event: the command's own end of the event then starts nothing more (R155). -/
theorem State.next_of_ended {s : State} (awake : s.awake) {f : Part → Part} {q : Part}
    (ended : f s.toPart = q.afterEvent) :
    s.next (s.toPart.unlessReset f) = .next (State.afterEvent { s with toPart := q }) := by
  rw [State.next_unlessReset_awake awake, ended, State.afterEvent, State.afterEvent, Part.afterEvent_afterEvent]

theorem State.next_of_taken {s : State} (awake : s.awake) {f : Part → Part} {q : Part}
    (taken : f s.toPart = q) :
    s.next (s.toPart.unlessReset f) = .next (State.afterEvent { s with toPart := q }) := by
  rw [State.next_unlessReset_awake awake, taken]

/-! ## The count line (R141) -/

section

variable {p : Part}

theorem Part.countOctet_miss (waits : p.count.rx = .wait) {o : Octet} (miss : o ≠ sync) :
    p.countOctet o = p.countBadFrame CountLineCounts.raiseSyncMiss := by
  simp [Part.countOctet, waits, miss]

theorem Part.countOctet_discarded (hunts : p.count.rx = .hunt) {o : Octet} (miss : o ≠ sync) :
    p.countOctet o = p := by
  simp [Part.countOctet, hunts, miss]

theorem Part.countLine_badLength (quiet : p.transmissionDue = false)
    (listens : p.count.rx = .wait ∨ p.count.rx = .hunt) (address : Octet) {length : Octet}
    (bad : length.toNat < 4 ∨ 37 < length.toNat) :
    p.lineOctets .countLine [sync, address, length] = p.countBadLength.afterEvent := by
  have last : (p.setCountRx (.frame [address])).countOctet length = p.countBadLength := by
    simp only [Part.countOctet, Part.setCountRx, Part.setCount]
    rw [List.singleton_append, judgeFrame_badLength bad]
    rfl
  rw [show [sync, address, length] = [sync, address] ++ [length] from rfl, Part.lineOctets_snoc,
    Part.countLine_incomplete quiet listens (octets := [address]) trivial, Part.lineOctet, last]

theorem Part.countLine_charTimeout (quiet : p.transmissionDue = false)
    (listens : p.count.rx = .wait ∨ p.count.rx = .hunt) {octets : List Octet} (ready : incomplete octets) :
    (p.lineOctets .countLine (sync :: octets)).lineCharTimeout .countLine =
      p.countBadFrame CountLineCounts.raiseCharTimeout := by
  rw [Part.countLine_incomplete quiet listens ready]
  rfl

theorem Part.countLine_badCrc (quiet : p.transmissionDue = false)
    (listens : p.count.rx = .wait ∨ p.count.rx = .hunt) {octets : List Octet} (whole : complete octets)
    (bad : passesCrc octets = false) :
    p.lineOctets .countLine (sync :: octets) = (p.countBadFrame CountLineCounts.raiseCrc).afterEvent := by
  rw [Part.countLine_complete quiet listens whole, bad]
  rfl

end

/-- Settles O10: what each octet or frame comes to, written as one update of the controller's record. -/
theorem countLineReceives : Obligations.CountLineReceives := by
  rintro s ⟨awake, quiet⟩
  refine ⟨fun octet miss waits => ?_, fun octet miss hunts => ?_, fun listens =>
    ⟨?_, fun address length bad => ?_, fun octets ready => ?_, fun octets whole bad => ?_⟩⟩
  · exact State.next_of_taken awake (Part.countOctet_miss waits miss)
  · exact State.next_of_taken awake (Part.countOctet_discarded hunts miss)
  · exact State.next_of_taken awake (Part.countOctet_sync listens)
  · exact State.next_of_ended awake (Part.countLine_badLength quiet listens address bad)
  · exact State.next_of_taken awake (Part.countLine_charTimeout quiet listens ready)
  · exact State.next_of_ended awake (Part.countLine_badCrc quiet listens whole bad)

/-! ## A LOCKED head link (R51, R52) -/

section

variable {p : Part} {l : LinkId} {polarity : Polarity} {rx : Rx}

/-- The receive condition before a bad frame does not matter to it. -/
theorem Part.setLinkMode_badFrame (mode : (p.link l).mode = .locked polarity rx) (before : Rx)
    (kind : BadFrame) (after : Rx) :
    (p.setLinkMode l (.locked polarity before)).badFrame l kind after = p.badFrame l kind after := by
  have received : ({ p.link l with mode := .locked polarity before } : LinkRec).withRx after =
      (p.link l).withRx after := by
    rw [LinkRec.withRx_locked mode]
    rfl
  simp only [Part.badFrame, Part.setLinkMode_link, received]
  simp only [Part.setLinkMode, Part.setLink_setLink, Part.setLink_threshold]

theorem Part.linkOctet_miss (mode : (p.link l).mode = .locked polarity .wait)
    (idle : (p.link l).transmitter = none) {o : Octet} (miss : polarity.apply o ≠ sync) :
    p.linkOctet l o = p.badFrame l .syncMiss .hunt := by
  simp [Part.linkOctet, idle, mode, Part.lockedOctet, miss]

theorem Part.linkOctet_discarded (mode : (p.link l).mode = .locked polarity .hunt)
    (idle : (p.link l).transmitter = none) {o : Octet} (miss : polarity.apply o ≠ sync) :
    p.linkOctet l o = p := by
  simp [Part.linkOctet, idle, mode, Part.lockedOctet, miss]

/-- A telegram in FRAME ends as CHAR_TIMEOUT (R52). -/
theorem Part.linkCharTimeout_of_frame {octets : List Octet}
    (mode : (p.link l).mode = .locked polarity (.frame octets)) :
    p.linkCharTimeout l = p.badFrame l .charTimeout .hunt := by
  simp [Part.linkCharTimeout, mode]

theorem Part.headLink_badLength (quiet : p.transmissionDue = false)
    (listens : (p.link l).listening polarity rx) (station : Octet) {length : Octet}
    (bad : length.toNat < 4 ∨ 37 < length.toNat) :
    p.lineOctets (.headLink l) ([sync, station, length].map polarity.apply) =
      (p.badFrame l .length .hunt).afterEvent := by
  obtain ⟨mode, ready, idle⟩ := listens
  have last : (p.setLinkMode l (.locked polarity (.frame [station]))).linkOctet l (polarity.apply length) =
      p.badFrame l .length .hunt := by
    rw [Part.linkOctet_locked (rx := .frame [station]) (by simp) (by simpa using idle)]
    simp only [Part.lockedOctet]
    rw [List.singleton_append, judgeFrame_badLength bad]
    exact Part.setLinkMode_badFrame mode _ _ _
  rw [show [sync, station, length].map polarity.apply =
      [sync, station].map polarity.apply ++ [polarity.apply length] from rfl, Part.lineOctets_snoc,
    Part.headLink_incomplete quiet mode ready idle (octets := [station]) trivial, Part.lineOctet, last]

theorem Part.headLink_charTimeout (quiet : p.transmissionDue = false)
    (listens : (p.link l).listening polarity rx) {octets : List Octet} (unfinished : incomplete octets) :
    (p.lineOctets (.headLink l) ((sync :: octets).map polarity.apply)).lineCharTimeout (.headLink l) =
      p.badFrame l .charTimeout .hunt := by
  obtain ⟨mode, ready, idle⟩ := listens
  have waits : ¬ ((p.setLinkMode l (.locked polarity (.frame octets))).link l).transmitter.isSome = true := by
    simp [idle]
  rw [Part.headLink_incomplete quiet mode ready idle unfinished, Part.lineCharTimeout, Part.linkCharWait,
    if_neg waits, Part.linkCharTimeout_of_frame (polarity := polarity) (octets := octets) (by simp),
    Part.setLinkMode_badFrame mode]

theorem Part.headLink_badCrc (quiet : p.transmissionDue = false)
    (listens : (p.link l).listening polarity rx) {octets : List Octet} (whole : complete octets)
    (bad : passesCrc octets = false) :
    p.lineOctets (.headLink l) ((sync :: octets).map polarity.apply) =
      (p.badFrame l .crc .hunt).afterEvent := by
  obtain ⟨mode, ready, idle⟩ := listens
  obtain ⟨frame, taken⟩ := Part.headLink_complete quiet mode ready idle whole
  rw [taken, if_neg (by simp [bad]), Part.setLinkMode_badFrame mode]

/-! ## The judgement of a telegram that passed CRC (R53, R56) -/

theorem Part.lockedTelegram_format {station kind : Octet} {body : List Octet}
    (malformed : parseHeadStatus station kind body = none) :
    p.lockedTelegram l (framed station kind body) = p.badFrame l .format .wait := by
  simp [Part.lockedTelegram, malformed]

theorem Part.lockedTelegram_stray {station kind : Octet} {body : List Octet} {t : HeadTelegram}
    (parsed : parseHeadStatus station kind body = some t)
    (unmapped : p.activeTable.stationMap l station = none) :
    p.lockedTelegram l (framed station kind body) =
      p.setLink l { p.link l with strays := raise16 (p.link l).strays } := by
  simp [Part.lockedTelegram, parsed, parseHeadStatus_station parsed, unmapped]

theorem Part.lockedTelegram_mapped {station kind : Octet} {body : List Octet} {t : HeadTelegram} {h : HeadId}
    (parsed : parseHeadStatus station kind body = some t)
    (mapped : p.activeTable.stationMap l station = some h) :
    p.lockedTelegram l (framed station kind body) = p.mappedTelegram l h t (framed station kind body) := by
  simp [Part.lockedTelegram, parsed, parseHeadStatus_station parsed, mapped]

theorem Part.headLink_format (quiet : p.transmissionDue = false)
    (listens : (p.link l).listening polarity rx) {station kind : Octet} {body : List Octet}
    (nonempty : 1 ≤ body.length) (fits : body.length ≤ 34)
    (malformed : parseHeadStatus station kind body = none) :
    p.lineOctets (.headLink l) (onTheWire polarity station kind body) =
      (p.badFrame l .format .wait).afterEvent := by
  obtain ⟨mode, ready, idle⟩ := listens
  rw [onTheWire, Part.headLink_telegram quiet mode ready idle station kind nonempty fits,
    Part.lockedTelegram_format malformed, Part.setLinkMode_badFrame mode]

end

/-! ## The commands that bring a bad frame to a LOCKED link -/

section

variable {s : State} {l : LinkId} {polarity : Polarity} {rx : Rx}

theorem exec_syncMiss_of_wait (settled : s.settled) (listens : (s.link l).listening polarity rx)
    {octet : Octet} (miss : polarity.apply octet ≠ sync) (waits : rx = .wait) :
    exec (.syncMiss (.headLink l) octet) s =
      .next (State.afterEvent { s with toPart := s.badFrame l .syncMiss .hunt }) := by
  obtain ⟨mode, -, idle⟩ := listens
  exact State.next_of_taken settled.1 (Part.linkOctet_miss (waits ▸ mode) idle miss)

theorem exec_lengthBadFrame_headLink (settled : s.settled) (listens : (s.link l).listening polarity rx)
    (station : Octet) {length : Octet} (bad : length.toNat < 4 ∨ 37 < length.toNat) :
    exec (.lengthBadFrame (.headLink l) ([sync, station, length].map polarity.apply)) s =
      .next (State.afterEvent { s with toPart := s.badFrame l .length .hunt }) :=
  State.next_of_ended settled.1 (Part.headLink_badLength settled.2 listens station bad)

theorem exec_charTimeout_headLink (settled : s.settled) (listens : (s.link l).listening polarity rx)
    {octets : List Octet} (unfinished : incomplete octets) :
    exec (.charTimeout (.headLink l) ((sync :: octets).map polarity.apply)) s =
      .next (State.afterEvent { s with toPart := s.badFrame l .charTimeout .hunt }) :=
  State.next_of_taken settled.1 (Part.headLink_charTimeout settled.2 listens unfinished)

theorem exec_crcBadFrame_headLink (settled : s.settled) (listens : (s.link l).listening polarity rx)
    {octets : List Octet} (whole : complete octets) (bad : passesCrc octets = false) :
    exec (.crcBadFrame (.headLink l) ((sync :: octets).map polarity.apply)) s =
      .next (State.afterEvent { s with toPart := s.badFrame l .crc .hunt }) :=
  State.next_of_ended settled.1 (Part.headLink_badCrc settled.2 listens whole bad)

theorem exec_headStatusTelegram_format (settled : s.settled) (listens : (s.link l).listening polarity rx)
    {station kind : Octet} {body : List Octet} (nonempty : 1 ≤ body.length) (fits : body.length ≤ 34)
    (malformed : parseHeadStatus station kind body = none) :
    exec (.headStatusTelegram l (onTheWire polarity station kind body)) s =
      .next (State.afterEvent { s with toPart := s.badFrame l .format .wait }) :=
  State.next_of_ended settled.1 (Part.headLink_format settled.2 listens nonempty fits malformed)

end

/-- Below the threshold a bad frame that leaves the receiver in HUNT raises its counter and the run (R57). -/
theorem Part.badFrame_counted {p : Part} {l : LinkId} {polarity : Polarity} {rx : Rx}
    (mode : (p.link l).mode = .locked polarity rx) (below : (p.link l).run + 1 < p.threshold l)
    (kind : BadFrame) :
    p.badFrame l kind .hunt =
      p.setLink l ((p.link l).afterBadFrame polarity ((p.link l).counts.raise kind)) := by
  rw [Part.badFrame_below below, LinkRec.withRx_locked mode]
  rfl

/-- Settles O11: each command brings its kind of bad frame, which below the threshold is counted alone. -/
theorem headLinkCountsBadFrames : Obligations.HeadLinkCountsBadFrames := by
  intro s l polarity rx settled listens below
  have ⟨mode, _, idle⟩ := listens
  have counted := Part.badFrame_counted mode below
  refine ⟨fun octet miss waits => ?_, fun octet miss hunts => ?_, fun station length bad => ?_,
    fun octets unfinished => ?_, fun octets whole bad => ?_⟩
  · exact (exec_syncMiss_of_wait settled listens miss waits).trans (by rw [counted]; rfl)
  · exact State.next_of_taken settled.1 (Part.linkOctet_discarded (hunts ▸ mode) idle miss)
  · exact (exec_lengthBadFrame_headLink settled listens station bad).trans (by rw [counted]; rfl)
  · exact (exec_charTimeout_headLink settled listens unfinished).trans (by rw [counted]; rfl)
  · exact (exec_crcBadFrame_headLink settled listens whole bad).trans (by rw [counted]; rfl)

/-! ## Gaps (R51, R52, R55) -/

section

variable {p : Part} {l : LinkId} {polarity : Polarity} {rx : Rx}

/-- A bad frame that loses the link does not leave it in a receive condition. -/
theorem Part.badFrame_lost_rx (mode : (p.link l).mode = .locked polarity rx)
    (reached : p.threshold l ≤ (p.link l).run + 1) (kind : BadFrame) (a b : Rx) :
    p.badFrame l kind a = p.badFrame l kind b := by
  rw [Part.badFrame_above reached, Part.badFrame_above reached, LinkRec.withRx_locked mode,
    LinkRec.withRx_locked mode]
  simp only [Part.linkLoss, Part.link_setLink, Part.setLink_setLink]
  rfl

theorem Part.linkQuiet_of_listening (listens : (p.link l).listening polarity rx) :
    p.linkQuiet l = p.setLink l { p.link l with mode := .locked polarity .wait } := by
  obtain ⟨mode, ready, idle⟩ := listens
  rcases ready with rfl | rfl <;>
    simp [Part.linkQuiet, idle, Part.linkCharTimeout, mode, Rx.quiet, LinkRec.withRx]

/-- The gap that ends a telegram in FRAME also takes HUNT to WAIT (log 9). -/
theorem Part.linkQuiet_of_frame {octets : List Octet}
    (mode : (p.link l).mode = .locked polarity (.frame octets)) (idle : (p.link l).transmitter = none) :
    p.linkQuiet l = p.badFrame l .charTimeout .wait := by
  have ended := Part.linkCharTimeout_of_frame mode
  by_cases below : (p.link l).run + 1 < p.threshold l
  · rw [Part.badFrame_below below, LinkRec.withRx_locked mode] at ended ⊢
    simp [Part.linkQuiet, idle, ended, LinkRec.withRx, Rx.quiet, Part.setLink_setLink]
  · have reached := Nat.not_lt.1 below
    have lost : ((p.badFrame l .charTimeout .hunt).link l).state = .search := by
      rw [Part.badFrame_above reached, Part.linkLoss_link_state, if_pos rfl]
    rw [Part.badFrame_lost_rx mode reached .charTimeout .wait .hunt, Part.linkQuiet, if_neg (by simp [idle]),
      ended]
    dsimp only
    split
    · rename_i stays
      simp [LinkRec.state, stays] at lost
    · rfl
    · rfl

theorem Part.linkCharTimeout_of_search {candidate : Option (Polarity × List Octet)}
    (mode : (p.link l).mode = .search candidate) :
    p.linkCharTimeout l = p.setLinkMode l (.search none) := by
  simp [Part.linkCharTimeout, mode, Part.setLinkMode]

theorem Part.linkQuiet_of_search {candidate : Option (Polarity × List Octet)}
    (mode : (p.link l).mode = .search candidate) (idle : (p.link l).transmitter = none) :
    p.linkQuiet l = p.setLinkMode l (.search none) := by
  simp [Part.linkQuiet, idle, Part.linkCharTimeout_of_search mode]

/-! ## A link that takes nothing (R54, R61) -/

/-- The link is OFF, or the part transmits on it. -/
def LinkRec.deaf (k : LinkRec) : Prop := k.mode = .off ∨ k.transmitter ≠ none

theorem Part.linkCharWait_of_deaf (deaf : (p.link l).deaf) : p.linkCharWait l = p := by
  unfold Part.linkCharWait
  split
  · rfl
  · rename_i idle
    rcases deaf with off | busy
    · simp [Part.linkCharTimeout, off]
    · exact absurd (Option.isSome_iff_ne_none.2 busy) idle

theorem Part.linkQuiet_of_deaf (deaf : (p.link l).deaf) : p.linkQuiet l = p := by
  unfold Part.linkQuiet
  split
  · rfl
  · rename_i idle
    rcases deaf with off | busy
    · simp [Part.linkCharTimeout, off]
    · exact absurd (Option.isSome_iff_ne_none.2 busy) idle

end

/-- A gap on the count line (R51, R52, R141). -/
theorem Part.countQuiet_eq (p : Part) :
    p.countQuiet = p.setCount { p.count with
      rx := .wait
      counts :=
        match p.count.rx with
        | .frame _ => p.count.counts.raiseCharTimeout
        | _ => p.count.counts } := by
  unfold Part.countQuiet Part.countCharTimeout
  cases rx : p.count.rx <;>
    simp [rx, Rx.quiet, Part.setCountRx, Part.setCount, Part.countBadFrame]

/-- A settled part that a command leaves as it is stays as it is. -/
theorem State.next_of_settled {s : State} (settled : s.settled) {f : Part → Part} (same : f s.toPart = s.toPart) :
    s.next (s.toPart.unlessReset f) = .next s := by
  rw [State.next_of_taken settled.1 same, State.afterEvent, Part.afterEvent_of_notDue settled.2]

/-- Settles O13: the gap by the receiver's condition, and a link that is OFF or on which the part transmits, of
which no command of reception finds a receiver. -/
theorem quietIntervalReturnsToWait : Obligations.QuietIntervalReturnsToWait := by
  refine ⟨fun s awake => ?_, fun s l polarity rx awake listens => ?_,
    fun s l polarity octets awake mode idle below => ?_, fun s l candidate awake mode idle => ?_,
    fun s l settled deaf => ⟨?_, fun octet => ?_, fun octets => ?_⟩⟩
  · exact (State.next_of_taken awake s.countQuiet_eq).trans (by cases s.count.rx <;> rfl)
  · exact State.next_of_taken awake (Part.linkQuiet_of_listening listens)
  · have ended := Part.linkQuiet_of_frame mode idle
    rw [Part.badFrame_below below, LinkRec.withRx_locked mode] at ended
    exact State.next_of_taken awake ended
  · exact State.next_of_taken awake (Part.linkQuiet_of_search mode idle)
  · exact State.next_of_settled settled (Part.linkQuiet_of_deaf deaf)
  · exact State.next_of_settled settled (Part.linkOctet_ignored deaf octet)
  · have ignored := Part.lineOctets_ignored settled.2 deaf octets
    have timedOut : (s.lineOctets (.headLink l) octets).lineCharTimeout (.headLink l) = s.toPart := by
      rw [ignored, Part.lineCharTimeout, Part.linkCharWait_of_deaf deaf]
    exact ⟨State.next_of_settled settled ignored, State.next_of_settled settled timedOut,
      State.next_of_settled settled ignored, State.next_of_settled settled ignored⟩

end Sys2Proof.Machine
end

section
/-! SUPPORT. The form of a head status telegram (R53, R165): what the judgement of form accepts, said once, and
that it reads back what R165 lays out. -/

namespace Sys2Proof.Machine

/-! ## What the judgement accepts -/

/-- The list count that octet 3 carries (R165). -/
def listCount (phases : Octet) : Nat := (phases.extractLsb' 0 3).toNat

/-- The octets of the health block that octet 1 announces (R165). -/
def healthLength (flags : Octet) : Nat := if flags.getLsbD 2 then 5 else 0

/-- The octets of the echo that octet 1 announces (R165). -/
def echoLength (flags : Octet) : Nat := if flags.getLsbD 1 then 1 else 0

section

variable (station kind flags count phases : Octet) (rest : List Octet)

/-- The change entries of a telegram whose octets after octet 3 are `rest` (R165). -/
def changeOctets : List Octet := rest.take (listCount phases)

/-- Its health block. -/
def healthOctets : List Octet := (rest.drop (listCount phases)).take (healthLength flags)

/-- Its echo. -/
def echoOctets : List Octet := rest.drop (listCount phases + healthLength flags)

/-- The fields that R165 lays out in the octets of a telegram. -/
def statusFields : HeadTelegram :=
  { station := station, sequence := flags.extractLsb' 4 4, restart := flags.getLsbD 3, changeCount := count
    phase := phaseOf (phases.extractLsb' 6 2)
    changes := (changeOctets phases rest).map fun e => phaseOf (e.extractLsb' 0 2)
    health := parseHealth (healthOctets flags phases rest), echo := parseEcho (echoOctets flags phases rest) }

/-- The form of R165 that a telegram must have to be no FORMAT bad frame, by its address and kind octets and the
octets of its body, of which `rest` are those after octet 3 (R53). -/
structure StatusForm : Prop where
  lowest     : 1 ≤ station.toNat
  highest    : station.toNat ≤ 8
  kindOctet  : kind = 0x01
  spareFlag  : flags.getLsbD 0 = false
  sparePhase : phases.extractLsb' 3 3 = 0
  count      : listCount phases ≤ 6
  length     : rest.length = listCount phases + healthLength flags + echoLength flags
  entries    : ∀ entry ∈ changeOctets phases rest, entry.extractLsb' 2 6 = 0
  last       : ∀ entry, (changeOctets phases rest).getLast? = some entry →
    phaseOf (entry.extractLsb' 0 2) = phaseOf (phases.extractLsb' 6 2)
  health     : healthLength flags ≠ 0 → parseHealth (healthOctets flags phases rest) ≠ none
  echo       : echoLength flags ≠ 0 → parseEcho (echoOctets flags phases rest) ≠ none

end

theorem parseChanges_eq (entries : List Octet) :
    parseChanges entries =
      if ∀ entry ∈ entries, entry.extractLsb' 2 6 = 0 then
        some (entries.map fun e => phaseOf (e.extractLsb' 0 2))
      else none := by
  simp [parseChanges, List.all_eq_true]

/-- A list that is not empty ends in something, so that its last entry is the present phase or is not. -/
theorem lastChange_iff (entries : List Octet) (phase : Phase) :
    ¬ (entries.map (fun e => phaseOf (e.extractLsb' 0 2)) ≠ [] ∧
        (entries.map fun e => phaseOf (e.extractLsb' 0 2)).getLast? ≠ some phase) ↔
      ∀ entry, entries.getLast? = some entry → phaseOf (entry.extractLsb' 0 2) = phase := by
  rw [List.getLast?_map]
  cases last : entries.getLast? with
  | none => simp [List.getLast?_eq_none_iff.1 last]
  | some entry =>
    have nonempty : entries ≠ [] := by
      rintro rfl
      cases last
    simp [nonempty]

/-- A telegram with no octet 3 has no form (R53). -/
theorem parseHeadStatus_of_short (station kind : Octet) {body : List Octet} (short : body.length < 3) :
    parseHeadStatus station kind body = none := by
  match body, short with
  | [], _ => rfl
  | [_], _ => rfl
  | [_, _], _ => rfl

section

variable {station kind flags count phases : Octet} {rest : List Octet}

/-- The judgement of form, one test after the other (R53). -/
theorem parseHeadStatus_eq : parseHeadStatus station kind (flags :: count :: phases :: rest) =
    if station.toNat < 1 ∨ 8 < station.toNat ∨ kind ≠ 0x01 ∨ flags.getLsbD 0 = true ∨
        phases.extractLsb' 3 3 ≠ 0 ∨ 6 < listCount phases ∨
        rest.length ≠ listCount phases + healthLength flags + echoLength flags then none
    else if ∀ entry ∈ changeOctets phases rest, entry.extractLsb' 2 6 = 0 then
      if (statusFields station flags count phases rest).changes ≠ [] ∧
          (statusFields station flags count phases rest).changes.getLast? ≠
            some (phaseOf (phases.extractLsb' 6 2)) then none
      else if (healthLength flags ≠ 0 ∧ parseHealth (healthOctets flags phases rest) = none) ∨
          (echoLength flags ≠ 0 ∧ parseEcho (echoOctets flags phases rest) = none) then none
      else some (statusFields station flags count phases rest)
    else none := by
  refine if_congr Iff.rfl rfl ?_
  rw [show parseChanges (rest.take (phases.extractLsb' 0 3).toNat) = _ from
    parseChanges_eq (changeOctets phases rest)]
  by_cases clear : ∀ entry ∈ changeOctets phases rest, entry.extractLsb' 2 6 = 0
  · rw [if_pos clear, if_pos clear]
    rfl
  · rw [if_neg clear, if_neg clear]

/-- What is accepted has the form of R165. -/
theorem statusForm_of_parsed {t : HeadTelegram}
    (parsed : parseHeadStatus station kind (flags :: count :: phases :: rest) = some t) :
    StatusForm station kind flags phases rest := by
  rw [parseHeadStatus_eq] at parsed
  split_ifs at parsed with header entries last blocks
  simp only [not_or, not_lt, not_not, Bool.not_eq_true] at header
  obtain ⟨lowest, highest, kindOctet, spareFlag, sparePhase, few, length⟩ := header
  obtain ⟨health, echo⟩ := not_or.1 blocks
  exact ⟨lowest, highest, kindOctet, spareFlag, sparePhase, few, length, entries, (lastChange_iff _ _).1 last,
    fun present missing => health ⟨present, missing⟩, fun present missing => echo ⟨present, missing⟩⟩

/-- What has the form of R165 is accepted, with the fields laid out. -/
theorem parseHeadStatus_of_form (form : StatusForm station kind flags phases rest) :
    parseHeadStatus station kind (flags :: count :: phases :: rest) =
      some (statusFields station flags count phases rest) := by
  obtain ⟨lowest, highest, kindOctet, spareFlag, sparePhase, few, length, entries, last, health, echo⟩ := form
  have ends := (lastChange_iff _ _).2 last
  rw [parseHeadStatus_eq, if_neg, if_pos entries, statusFields, if_neg ends, if_neg]
  · exact not_or.2 ⟨fun missing => health missing.1 missing.2, fun missing => echo missing.1 missing.2⟩
  · simp only [not_or, not_lt, not_not, Bool.not_eq_true]
    exact ⟨lowest, highest, kindOctet, spareFlag, sparePhase, few, length⟩

/-! ## Octets that have no such form (R53) -/

theorem healthLength_eq (flags : Octet) : healthLength flags = 5 * if flags.getLsbD 2 then 1 else 0 := by
  unfold healthLength
  split <;> rfl

/-- The phases have codes of two bits each (0.7.3). -/
theorem phaseOf_injective : Function.Injective phaseOf := by
  unfold Function.Injective
  decide

/-- A health block is five octets, the second with no spare bit set (R165). -/
theorem parseHealth_alarms {octets : List Octet} (parsed : parseHealth octets ≠ none) {alarms : Octet}
    (second : octets[1]? = some alarms) : alarms.extractLsb' 2 6 = 0 := by
  unfold parseHealth at parsed
  split at parsed
  · split at parsed
    · rename_i clear
      cases second
      exact clear
    · exact absurd rfl parsed
  · exact absurd rfl parsed

/-- An echo is one octet with no spare bit set (R165). -/
theorem parseEcho_spare {octets : List Octet} (parsed : parseEcho octets ≠ none) {echo : Octet}
    (first : octets[0]? = some echo) : echo.extractLsb' 4 3 = 0 := by
  unfold parseEcho at parsed
  split at parsed
  · split at parsed
    · rename_i clear
      cases first
      exact clear
    · exact absurd rfl parsed
  · exact absurd rfl parsed

namespace StatusForm

variable (form : StatusForm station kind flags phases rest)

include form

theorem entry_clear {k : Nat} {entry : Octet} (within : k < listCount phases) (found : rest[k]? = some entry) :
    entry.extractLsb' 2 6 = 0 :=
  form.entries entry (List.mem_of_getElem? ((List.getElem?_take_of_lt within).trans found))

theorem last_entry {entry : Octet} (nonempty : 1 ≤ listCount phases)
    (found : rest[listCount phases - 1]? = some entry) : entry.extractLsb' 0 2 = phases.extractLsb' 6 2 := by
  refine phaseOf_injective (form.last entry ?_)
  rw [changeOctets, List.getLast?_take, if_neg (Nat.one_le_iff_ne_zero.1 nonempty), found]
  rfl

theorem alarms_clear {alarms : Octet} (present : healthLength flags = 5)
    (found : rest[listCount phases + 1]? = some alarms) : alarms.extractLsb' 2 6 = 0 := by
  refine parseHealth_alarms (form.health (by simp [present])) ?_
  rw [healthOctets, present, List.getElem?_take_of_lt (by decide), List.getElem?_drop, found]

theorem echo_clear {echo : Octet} (present : echoLength flags = 1)
    (found : rest[listCount phases + healthLength flags]? = some echo) : echo.extractLsb' 4 3 = 0 := by
  refine parseEcho_spare (form.echo (by simp [present])) ?_
  rw [echoOctets, List.getElem?_drop, Nat.add_zero, found]

end StatusForm

/-- A telegram that is accepted has kind 01 and a station of 1 to 8 (R53). -/
theorem parseHeadStatus_header {station kind : Octet} {body : List Octet} {t : HeadTelegram}
    (parsed : parseHeadStatus station kind body = some t) :
    kind = 0x01 ∧ 1 ≤ station.toNat ∧ station.toNat ≤ 8 ∧ 3 ≤ body.length := by
  match body, parsed with
  | flags :: count :: phases :: rest, parsed =>
    have form := statusForm_of_parsed parsed
    exact ⟨form.kindOctet, form.lowest, form.highest, by simp⟩

end

/-! ## What R165 lays out -/

/-- The octets of a health block. -/
def healthBlock : Option Health → List Octet
  | none => []
  | some b =>
    [b.levelA ++ b.levelB, 0#6 ++ BitVec.ofBool b.supplyAlarm ++ BitVec.ofBool b.temperatureAlarm,
      b.identity.extractLsb' 16 8, b.identity.extractLsb' 8 8, b.identity.extractLsb' 0 8]

/-- The octets of an echo. -/
def echoBlock : Option Echo → List Octet
  | none => []
  | some e => [BitVec.ofBool (e.code == .healthRequest) ++ 0#3 ++ e.tag]

/-- Octet 1 of a body. -/
def HeadTelegram.flagsOctet (t : HeadTelegram) : Octet :=
  t.sequence ++ BitVec.ofBool t.restart ++ BitVec.ofBool t.health.isSome ++ BitVec.ofBool t.echo.isSome ++ 0#1

/-- Octet 3 of a body. -/
def HeadTelegram.phasesOctet (t : HeadTelegram) : Octet :=
  (codePhase t.phase).setWidth 2 ++ 0#3 ++ BitVec.ofNat 3 t.changes.length

/-- The octets of a body after octet 3. -/
def HeadTelegram.blocks (t : HeadTelegram) : List Octet :=
  t.changes.map codePhase ++ (healthBlock t.health ++ echoBlock t.echo)

theorem HeadTelegram.body_eq (t : HeadTelegram) :
    t.body = t.flagsOctet :: t.changeCount :: t.phasesOctet :: t.blocks := by
  unfold HeadTelegram.body HeadTelegram.blocks
  rw [← List.append_assoc]
  rfl

theorem HeadTelegram.flagsOctet_fields (t : HeadTelegram) :
    t.flagsOctet.extractLsb' 4 4 = t.sequence ∧ t.flagsOctet.getLsbD 3 = t.restart ∧
      t.flagsOctet.getLsbD 2 = t.health.isSome ∧ t.flagsOctet.getLsbD 1 = t.echo.isSome ∧
      t.flagsOctet.getLsbD 0 = false := by
  have fields : ∀ (sequence : BitVec 4) (restart health echo : Bool),
      let flags : Octet :=
        sequence ++ BitVec.ofBool restart ++ BitVec.ofBool health ++ BitVec.ofBool echo ++ 0#1
      flags.extractLsb' 4 4 = sequence ∧ flags.getLsbD 3 = restart ∧ flags.getLsbD 2 = health ∧
        flags.getLsbD 1 = echo ∧ flags.getLsbD 0 = false := by decide
  exact fields _ _ _ _

theorem HeadTelegram.phasesOctet_fields (t : HeadTelegram) :
    phaseOf (t.phasesOctet.extractLsb' 6 2) = t.phase ∧ t.phasesOctet.extractLsb' 3 3 = 0 := by
  have fields : ∀ n : BitVec 3, ∀ phase : BitVec 2,
      (phase ++ 0#3 ++ n : Octet).extractLsb' 6 2 = phase ∧ (phase ++ 0#3 ++ n : Octet).extractLsb' 3 3 = 0 := by
    decide
  have coded : phaseOf ((codePhase t.phase).setWidth 2) = t.phase := by cases t.phase <;> rfl
  obtain ⟨phase, spare⟩ := fields (BitVec.ofNat 3 t.changes.length) ((codePhase t.phase).setWidth 2)
  exact ⟨(congrArg phaseOf phase).trans coded, spare⟩

theorem HeadTelegram.listCount_phasesOctet {t : HeadTelegram} (few : t.changes.length ≤ 6) :
    listCount t.phasesOctet = t.changes.length := by
  rw [listCount, HeadTelegram.phasesOctet, BitVec.extractLsb'_append_eq_right, BitVec.toNat_ofNat]
  exact Nat.mod_eq_of_lt (by omega)

theorem HeadTelegram.healthLength_flagsOctet (t : HeadTelegram) :
    healthLength t.flagsOctet = (healthBlock t.health).length := by
  obtain ⟨-, -, health, -⟩ := t.flagsOctet_fields
  rw [healthLength, health]
  cases t.health <;> rfl

theorem HeadTelegram.echoLength_flagsOctet (t : HeadTelegram) :
    echoLength t.flagsOctet = (echoBlock t.echo).length := by
  obtain ⟨-, -, -, echo, -⟩ := t.flagsOctet_fields
  rw [echoLength, echo]
  cases t.echo <;> rfl

theorem parseHealth_healthBlock (health : Option Health) : parseHealth (healthBlock health) = health := by
  cases health with
  | none => rfl
  | some b =>
    have alarms : ∀ supply temperature : Bool,
        let octet : Octet := 0#6 ++ BitVec.ofBool supply ++ BitVec.ofBool temperature
        octet.extractLsb' 2 6 = 0 ∧ octet.getLsbD 1 = supply ∧ octet.getLsbD 0 = temperature := by decide
    obtain ⟨spare, supply, temperature⟩ := alarms b.supplyAlarm b.temperatureAlarm
    have identity : b.identity.extractLsb' 16 8 ++ b.identity.extractLsb' 8 8 ++ b.identity.extractLsb' 0 8 =
        b.identity := by
      have upper : b.identity.extractLsb' 16 8 ++ b.identity.extractLsb' 8 8 = b.identity.extractLsb' 8 16 :=
        BitVec.extractLsb'_append_extractLsb'_eq_extractLsb' rfl
      have whole : b.identity.extractLsb' 8 16 ++ b.identity.extractLsb' 0 8 = b.identity.extractLsb' 0 24 :=
        BitVec.extractLsb'_append_extractLsb'_eq_extractLsb' rfl
      exact (congrArg (· ++ b.identity.extractLsb' 0 8) upper).trans (whole.trans (BitVec.extractLsb'_eq_self))
    simp only [healthBlock, parseHealth, spare, if_true, supply, temperature, identity,
      BitVec.extractLsb'_append_eq_left, BitVec.extractLsb'_append_eq_right]

theorem parseEcho_echoBlock (echo : Option Echo) : parseEcho (echoBlock echo) = echo := by
  cases echo with
  | none => rfl
  | some e =>
    have fields : ∀ (health : Bool) (tag : BitVec 4),
        let octet : Octet := BitVec.ofBool health ++ 0#3 ++ tag
        octet.extractLsb' 4 3 = 0 ∧ octet.getLsbD 7 = health ∧ octet.extractLsb' 0 4 = tag := by decide
    obtain ⟨spare, health, tag⟩ := fields (e.code == .healthRequest) e.tag
    have code : (if (e.code == .healthRequest) = true then RelayCode.healthRequest else .restart) = e.code := by
      cases e.code <;> rfl
    simp only [echoBlock, parseEcho, spare, if_true, health, tag, code]

/-- The entries that R165 lays out, read back. -/
theorem codePhase_entry (phase : Phase) :
    (codePhase phase).extractLsb' 2 6 = 0 ∧ phaseOf ((codePhase phase).extractLsb' 0 2) = phase := by
  cases phase <;> decide

section

variable {t : HeadTelegram} (few : t.changes.length ≤ 6)

include few

/-- The octets after octet 3 fall into the entries, the health block and the echo. -/
theorem HeadTelegram.blocks_parts :
    changeOctets t.phasesOctet t.blocks = t.changes.map codePhase ∧
      healthOctets t.flagsOctet t.phasesOctet t.blocks = healthBlock t.health ∧
      echoOctets t.flagsOctet t.phasesOctet t.blocks = echoBlock t.echo := by
  have entries : t.changes.length = (t.changes.map codePhase).length := (List.length_map _).symm
  unfold changeOctets healthOctets echoOctets HeadTelegram.blocks
  rw [HeadTelegram.listCount_phasesOctet few, t.healthLength_flagsOctet, entries, ← List.drop_drop,
    List.take_left, List.drop_left, List.take_left, List.drop_left]
  exact ⟨rfl, rfl, rfl⟩

theorem HeadTelegram.statusFields_blocks :
    statusFields t.station t.flagsOctet t.changeCount t.phasesOctet t.blocks = t := by
  obtain ⟨sequence, restart, -⟩ := t.flagsOctet_fields
  obtain ⟨phase, -⟩ := t.phasesOctet_fields
  obtain ⟨entries, health, echo⟩ := HeadTelegram.blocks_parts few
  have changes : (t.changes.map codePhase).map (fun e => phaseOf (e.extractLsb' 0 2)) = t.changes := by
    simp [Function.comp_def, codePhase_entry]
  rw [statusFields, sequence, restart, phase, entries, health, echo, changes, parseHealth_healthBlock,
    parseEcho_echoBlock]

theorem HeadTelegram.statusForm_blocks (lowest : 1 ≤ t.station.toNat) (highest : t.station.toNat ≤ 8)
    (last : ∀ last, t.changes.getLast? = some last → last = t.phase) :
    StatusForm t.station 0x01 t.flagsOctet t.phasesOctet t.blocks := by
  obtain ⟨-, -, -, -, spareFlag⟩ := t.flagsOctet_fields
  obtain ⟨phase, sparePhase⟩ := t.phasesOctet_fields
  obtain ⟨entries, health, echo⟩ := HeadTelegram.blocks_parts few
  have count := HeadTelegram.listCount_phasesOctet few
  refine ⟨lowest, highest, rfl, spareFlag, sparePhase, count.trans_le few, ?_, ?_, ?_, ?_, ?_⟩
  · simp [count, t.healthLength_flagsOctet, t.echoLength_flagsOctet, HeadTelegram.blocks, Nat.add_assoc]
  · rw [entries]
    simp [codePhase_entry]
  · rw [entries, phase, List.getLast?_map]
    intro entry ends
    obtain ⟨change, final, rfl⟩ := Option.map_eq_some_iff.1 ends
    rw [(codePhase_entry change).2]
    exact last change final
  · rw [health, parseHealth_healthBlock, t.healthLength_flagsOctet]
    cases t.health <;> simp [healthBlock]
  · rw [echo, parseEcho_echoBlock, t.echoLength_flagsOctet]
    cases t.echo <;> simp [echoBlock]

end

end Sys2Proof.Machine
end

section
/-! SUPPORT. Head telegrams that change little (R28, R32, R53, R56, R57): a malformed one, a stray, and a repeat. -/

namespace Sys2Proof.Machine

/-! ## A stray on a LOCKED link (R56) -/

section

variable {p : Part} {l : LinkId} {polarity : Polarity} {rx : Rx} {station kind : Octet} {body : List Octet}
  {t : HeadTelegram}

theorem Part.headLink_stray (quiet : p.transmissionDue = false) (listens : (p.link l).listening polarity rx)
    (nonempty : 1 ≤ body.length) (fits : body.length ≤ 34) (parsed : parseHeadStatus station kind body = some t)
    (unmapped : p.activeTable.stationMap l station = none) :
    p.lineOctets (.headLink l) (onTheWire polarity station kind body) =
      (p.setLink l { p.link l with
        mode := .locked polarity .wait, strays := raise16 (p.link l).strays }).afterEvent := by
  obtain ⟨mode, ready, idle⟩ := listens
  rw [onTheWire, Part.headLink_telegram quiet mode ready idle station kind nonempty fits,
    Part.lockedTelegram_stray (p := p.setLinkMode l _) parsed unmapped, Part.setLinkMode_link, Part.setLinkMode,
    Part.setLink_setLink]

/-! ## A repeat (R28, R32) -/

theorem Part.setHead_setLink (p : Part) (h : HeadId) (r : HeadRec) (l : LinkId) (k : LinkRec) :
    (p.setHead h r).setLink l k = (p.setLink l k).setHead h r := rfl

/-- A repeat goes no further than the silence step, which leaves a FAILED head as it is. -/
theorem Part.takeTelegram_repeat {h : HeadId} {b : Baseline} (unmarked : t.restart = false)
    (present : (p.head h).state ≠ .absent) (known : (p.head h).baseline = some b)
    (same : t.sequence = b.sequence) (l : LinkId) :
    p.takeTelegram l h t =
      (p.setHead h (if (p.head h).state = .failed then p.head h
        else { p.head h with silence := .running (p.headCfg h).silenceTimeout.toNat }), true) := by
  have judged : (p.head h).state = .acquiring ∨ (p.head h).state = .inService → p.verdict h t = .repeated :=
    fun heard => (Part.verdict_heard heard known t).trans (judgeSequence_repeated same)
  cases state : (p.head h).state with
  | absent => exact absurd state present
  | failed =>
    obtain ⟨-, failed⟩ := Part.takeTelegram_failed (t := t) state l
    rw [(failed b unmarked known).1 same, if_pos rfl, Part.setHead_head]
  | acquiring =>
    obtain ⟨-, -, repeated, -⟩ := Part.takeTelegram_acquiring (t := t) state l
    exact repeated unmarked (judged (.inl state))
  | inService =>
    obtain ⟨-, -, repeated, -⟩ := Part.takeTelegram_inService (t := t) state l
    exact repeated unmarked (judged (.inr state))

end

/-- Settles O15: the form of R165 both ways, and then what each of the three telegrams touches. -/
theorem malformedStrayAndRepeatedTelegrams : Obligations.MalformedStrayAndRepeatedTelegrams := by
  refine ⟨fun t lowest highest few last => ?_, fun station kind body malformed => ?_, ?_, ?_, ?_⟩
  · rw [t.body_eq, parseHeadStatus_of_form (HeadTelegram.statusForm_blocks few lowest highest last),
      HeadTelegram.statusFields_blocks few]
  · refine Option.eq_none_iff_forall_ne_some.2 fun t parsed => ?_
    obtain ⟨kindOctet, lowest, highest, long⟩ := parseHeadStatus_header parsed
    rcases malformed with other | rfl | above | short
    · exact other kindOctet
    · exact absurd lowest (by decide)
    · exact absurd highest (Nat.not_le.2 above)
    · exact absurd long (Nat.not_le.2 short)
  · rintro station kind flags count phases rest n h e rfl rfl rfl malformed
    refine Option.eq_none_iff_forall_ne_some.2 fun t parsed => ?_
    have form := statusForm_of_parsed parsed
    rw [← healthLength_eq] at malformed
    rcases malformed with spare | spare | seven | length | ⟨k, entry, within, found, spare⟩ |
      ⟨entry, nonempty, found, differs⟩ | ⟨alarms, present, found, spare⟩ | ⟨echo, present, found, spare⟩
    · exact absurd form.spareFlag (by simp [spare])
    · exact spare form.sparePhase
    · exact absurd form.count (by simp [listCount, seven])
    · exact length form.length
    · exact spare (form.entry_clear within found)
    · exact differs (form.last_entry nonempty found)
    · exact spare (form.alarms_clear (by rw [healthLength_eq, present]) found)
    · exact spare (form.echo_clear present found)
  · intro s l polarity rx station kind body settled listens nonempty fits
    refine ⟨fun malformed below => ?_, fun formed unmapped => ?_⟩
    · rw [exec_headStatusTelegram_format settled listens nonempty fits malformed, Part.badFrame_below below,
        LinkRec.withRx_locked listens.1]
      rfl
    · obtain ⟨t, parsed⟩ := Option.ne_none_iff_exists'.1 formed
      exact State.next_of_ended settled.1
        (Part.headLink_stray settled.2 listens nonempty fits parsed unmapped)
  · intro s l h polarity rx station body t b hears nonempty fits parsed unmarked present known same
    have taken := Part.takeTelegram_repeat (p := s.setLinkMode l (.locked polarity .wait)) unmarked present
      known same l
    rw [exec_headStatusTelegram_mapped hears nonempty fits parsed,
      Part.mappedTelegram_framed _ l h t station body taken.symm, if_pos rfl, Part.setHead_setLink,
      Part.setHead_link, Part.setLinkMode_link, Part.setLinkMode, Part.setLink_setLink]
    rfl

end Sys2Proof.Machine
end

section
/-! SUPPORT. A head link in SEARCH (R55): the candidates it drops, and the telegram that locks it. -/

namespace Sys2Proof.Machine

/-- The link that a good candidate locked, with its notice offered (R55). -/
def Part.lockedIn (p : Part) (l : LinkId) (polarity : Polarity) : Part :=
  (p.setLink l { p.link l with mode := .locked polarity .wait, latch := true }).setReport
    (p.report.offer (.linkState l .locked polarity))

section

variable {p : Part} {l : LinkId} {polarity : Polarity}

theorem Part.setLink_link (p : Part) (l : LinkId) : p.setLink l (p.link l) = p := by
  simp [Part.setLink, Part.link]

theorem Part.setReport_setLink (p : Part) (r : ReportUnit) (l : LinkId) (k : LinkRec) :
    (p.setReport r).setLink l k = (p.setLink l k).setReport r := rfl

theorem Part.setLinkMode_of_mode {mode : LinkMode} (same : (p.link l).mode = mode) : p.setLinkMode l mode = p := by
  subst same
  exact Part.setLink_link p l

theorem Part.linkOctet_search (searches : (p.link l).mode = .search none) (idle : (p.link l).transmitter = none)
    (octet : Octet) : p.linkOctet l octet = p.searchOctet l none octet := by
  simp [Part.linkOctet, idle, searches]

/-- An octet that is a SYNC in neither polarity begins no candidate. -/
theorem Part.searchOctet_other {octet : Octet} (direct : octet ≠ sync) (inverted : octet ≠ syncInverted) :
    p.searchOctet l none octet = p := by
  simp [Part.searchOctet, direct, inverted]

theorem Part.searchOctet_sync (polarity : Polarity) :
    p.searchOctet l none (polarity.apply sync) = p.setLinkMode l (.search (some (polarity, []))) := by
  cases polarity <;> rfl

/-- The candidate before the lock does not matter to it. -/
theorem Part.lock_eq (candidate : LinkMode) (octets : List Octet) :
    (p.setLinkMode l candidate).lock l polarity octets = (p.lockedIn l polarity).lockedTelegram l octets := by
  simp only [Part.lock, Part.setLinkMode_link]
  rw [Part.setLinkMode, Part.setLink_setLink]
  rfl

variable (quiet : p.transmissionDue = false) (searches : (p.link l).mode = .search none)
  (idle : (p.link l).transmitter = none)

include quiet searches idle

theorem Part.search_badLength (polarity : Polarity) (station : Octet) {length : Octet}
    (bad : length.toNat < 4 ∨ 37 < length.toNat) :
    p.lineOctets (.headLink l) ([sync, station, length].map polarity.apply) = p.afterEvent := by
  have last : (p.setLinkMode l (.search (some (polarity, [station])))).linkOctet l (polarity.apply length) = p := by
    have dropped : (p.setLinkMode l (.search (some (polarity, [station])))).linkOctet l (polarity.apply length) =
        (p.setLinkMode l (.search (some (polarity, [station])))).setLinkMode l (.search none) := by
      simp only [Part.linkOctet, Part.setLinkMode_link, idle]
      simp only [Option.isSome_none, Bool.false_eq_true, if_false, Part.searchOctet, Polarity.apply_apply,
        List.singleton_append, judgeFrame_badLength bad]
      rfl
    rw [dropped, Part.setLinkMode_setLinkMode, Part.setLinkMode_of_mode searches]
  rw [show [sync, station, length].map polarity.apply =
      [sync, station].map polarity.apply ++ [polarity.apply length] from rfl, Part.lineOctets_snoc,
    Part.search_incomplete quiet searches idle polarity (octets := [station]) trivial, Part.lineOctet, last]

theorem Part.search_charTimeout (polarity : Polarity) {octets : List Octet} (unfinished : incomplete octets) :
    (p.lineOctets (.headLink l) ((sync :: octets).map polarity.apply)).lineCharTimeout (.headLink l) = p := by
  have waits : ¬ ((p.setLinkMode l (.search (some (polarity, octets)))).link l).transmitter.isSome = true := by
    simp [idle]
  have candidate : ((p.setLinkMode l (.search (some (polarity, octets)))).link l).mode =
      .search (some (polarity, octets)) := by simp
  rw [Part.search_incomplete quiet searches idle polarity unfinished, Part.lineCharTimeout, Part.linkCharWait,
    if_neg waits, Part.linkCharTimeout_of_search candidate, Part.setLinkMode_setLinkMode,
    Part.setLinkMode_of_mode searches]

theorem Part.search_badCrc (polarity : Polarity) {octets : List Octet} (whole : complete octets)
    (bad : passesCrc octets = false) :
    p.lineOctets (.headLink l) ((sync :: octets).map polarity.apply) = p.afterEvent := by
  obtain ⟨candidate, taken⟩ := Part.search_complete quiet searches idle polarity whole
  rw [taken, if_neg (by simp [bad]), Part.setLinkMode_of_mode searches]

theorem Part.search_telegram (polarity : Polarity) (station kind : Octet) {body : List Octet}
    (nonempty : 1 ≤ body.length) (fits : body.length ≤ 34) :
    p.lineOctets (.headLink l) (onTheWire polarity station kind body) =
      ((p.lockedIn l polarity).lockedTelegram l (framed station kind body)).afterEvent := by
  obtain ⟨candidate, taken⟩ :=
    Part.search_complete quiet searches idle polarity (framed_complete station kind nonempty fits)
  rw [onTheWire, telegram, taken, framed_passesCrc, if_pos rfl, Part.lock_eq]

end

/-- Settles O14: the candidates dropped leave the part as it was, and the telegram that locks is judged by the
part that it locked. -/
theorem searchLocksOnTheFirstGoodTelegram : Obligations.SearchLocksOnTheFirstGoodTelegram := by
  intro s l ⟨awake, quiet⟩ searches idle
  refine ⟨fun octet direct inverted => ?_, fun polarity => ⟨?_, fun station length bad => ?_,
    fun octets unfinished => ?_, fun octets whole bad => ?_, ?_⟩⟩
  · exact State.next_of_taken awake
      ((Part.linkOctet_search searches idle octet).trans (Part.searchOctet_other direct inverted))
  · exact State.next_of_taken awake
      ((Part.linkOctet_search searches idle _).trans (Part.searchOctet_sync polarity))
  · exact State.next_of_ended awake (Part.search_badLength quiet searches idle polarity station bad)
  · exact State.next_of_taken awake (Part.search_charTimeout quiet searches idle polarity unfinished)
  · exact State.next_of_ended awake (Part.search_badCrc quiet searches idle polarity whole bad)
  · rintro station kind body locked nonempty fits rfl
    have received := Part.search_telegram quiet searches idle polarity station kind nonempty fits
    refine ⟨fun malformed => ?_, fun t parsed => ⟨fun unmapped => ?_, fun h taken mapped took => ?_⟩⟩
    · rw [Part.lockedTelegram_format malformed] at received
      exact State.next_of_ended awake received
    · rw [Part.lockedTelegram_stray (p := s.lockedIn l polarity) parsed unmapped] at received
      rw [Part.lockedIn, Part.setReport_setLink, Part.setLink_setLink, Part.setReport_link, Part.link_setLink]
        at received
      exact State.next_of_ended awake received
    · obtain ⟨rfl, -⟩ := parseHeadStatus_header parsed
      rw [Part.lockedTelegram_mapped (p := s.lockedIn l polarity) parsed mapped,
        Part.mappedTelegram_framed (p := s.lockedIn l polarity) l h t station body took] at received
      exact State.next_of_ended awake received

end Sys2Proof.Machine
end

section
/-! SUPPORT. HEAD RELAY (R63): what a command is addressed to, whom a RESTART would reach, and the four checks. -/

namespace Sys2Proof.Machine

theorem linkOf_eq_none {o : Octet} (above : 4 ≤ o.toNat) : linkOf o = none :=
  dif_neg (Nat.not_lt.2 above)

/-! ## What a command is addressed to -/

section

variable {p : Part} {number : Octet}

theorem Part.relayAddress_noHead (named : headOf number = none) : p.relayAddress 1 number = none := by
  simp [Part.relayAddress, named]

theorem Part.relayAddress_head {h : HeadId} (named : headOf number = some h) :
    p.relayAddress 1 number =
      if (p.headCfg h).present then
        (linkOf (p.headCfg h).link).map fun l =>
          { link := l, target := .head h, station := (p.headCfg h).station }
      else none := by
  simp [Part.relayAddress, named]

theorem Part.relayAddress_noLink (named : linkOf number = none) : p.relayAddress 2 number = none := by
  simp [Part.relayAddress, named]

theorem Part.relayAddress_link {l : LinkId} (named : linkOf number = some l) :
    p.relayAddress 2 number =
      if p.activeTable.global.enabled[l] then some { link := l, target := .broadcast, station := 0 }
      else none := by
  simp [Part.relayAddress, named]

end

/-- A RESTART is forbidden where it would reach a head in service: the one addressed, or one of the link. -/
theorem Part.restartForbidden_iff (p : Part) (a : RelayAddress) (code : RelayCode) :
    p.restartForbidden a code = true ↔
      code = .restart ∧ ((∃ h, a.target = .head h ∧ (p.head h).state = .inService) ∨
        a.target = .broadcast ∧ ∃ h, (p.headCfg h).present = true ∧
          (p.headCfg h).link.toNat = a.link.val ∧ (p.head h).state = .inService) := by
  cases code with
  | healthRequest => simp [Part.restartForbidden]
  | restart =>
    cases target : a.target with
    | head h => simp [Part.restartForbidden, target]
    | broadcast => simp [Part.restartForbidden, target, Part.headCfg, and_assoc]

/-! ## The request -/

/-- The command that a code octet names (R63). -/
def relayCodeOf (code : Octet) : RelayCode := if code = 1 then .restart else .healthRequest

theorem relayCodeOf_eq_restart_iff (code : Octet) : relayCodeOf code = .restart ↔ code = 1 := by
  simp [relayCodeOf]

theorem requestForm_headRelay {tag form number code : Octet} (forms : form = 1 ∨ form = 2)
    (codes : code = 1 ∨ code = 2) : requestForm kindHeadRelay [tag, form, number, code] = true := by
  rcases forms with rfl | rfl <;> rcases codes with rfl | rfl <;> rfl

section

variable {p : Part} {tag form number code : Octet} {a : RelayAddress}

theorem headRelayRequest_outOfRange (unaddressed : p.relayAddress form number = none) :
    headRelayRequest [tag, form, number, code] p = (p, refuse .range) := by
  simp [headRelayRequest, field, unaddressed]

theorem headRelayRequest_addressed (addressed : p.relayAddress form number = some a) :
    headRelayRequest [tag, form, number, code] p =
      if (p.link a.link).state ≠ .locked then (p, refuse .state)
      else if p.restartForbidden a (relayCodeOf code) then (p, refuse .state)
      else if relayCapacity ≤ (p.link a.link).queue.length then (p, refuse .busy)
      else
        (p.setLink a.link { p.link a.link with
            queue := (p.link a.link).queue ++
              [{ target := a.target, station := a.station, code := relayCodeOf code
                 tag := (p.link a.link).tag, stage := .waiting }]
            tag := (p.link a.link).tag + 1 },
          accepted [octetOf a.link.val, (p.link a.link).tag.setWidth 8]) := by
  simp only [headRelayRequest, field, relayCodeOf]
  simp [addressed]

end

/-- Settles O37: each answer of the owner, by the address and the checks, and the request's own reply. -/
theorem headRelayIsJudged : Obligations.HeadRelayIsJudged := by
  intro s tag number code room codes
  have relay {form : Octet} {p : Part} {a : Answer} (forms : form = 1 ∨ form = 2)
      (answers : headRelayRequest [tag, form, number, code] (s.toPart.setCountRx .wait) = (p, a))
      (count : p.count = (s.toPart.setCountRx .wait).count) :
      exec (.headRelay [tag, form, number, code]) s = s.answeredAfter p tag 0x19 a.outcome a.items :=
    State.next_requestArrives room (by simp) (requestForm_headRelay forms codes) answers count
  refine ⟨fun above => ?_, fun h named absent => ?_, fun above => ?_, fun l named disabled => ?_,
    fun form l target station addressee reached reaches => ?_⟩
  · exact relay (.inl rfl) (headRelayRequest_outOfRange (Part.relayAddress_noHead (headOf_eq_none above))) rfl
  · refine relay (.inl rfl) (headRelayRequest_outOfRange ?_) rfl
    rw [Part.relayAddress_head ((headOf_eq_some_iff _ h).2 named)]
    exact if_neg (Bool.eq_false_iff.1 absent)
  · exact relay (.inr rfl) (headRelayRequest_outOfRange (Part.relayAddress_noLink (linkOf_eq_none above))) rfl
  · refine relay (.inr rfl) (headRelayRequest_outOfRange ?_) rfl
    rw [Part.relayAddress_link ((linkOf_eq_some_iff _ l).2 named)]
    exact if_neg (Bool.eq_false_iff.1 disabled)
  · have forms : form = 1 ∨ form = 2 := addressee.imp And.left And.left
    have addressed : (s.toPart.setCountRx .wait).relayAddress form number =
        some { link := l, target := target, station := station } := by
      rcases addressee with ⟨rfl, h, named, present, link, rfl, rfl⟩ | ⟨rfl, named, enabled, rfl, rfl⟩
      · rw [Part.relayAddress_head ((headOf_eq_some_iff _ h).2 named)]
        refine (if_pos present).trans ?_
        exact congrArg (Option.map _) ((linkOf_eq_some_iff _ l).2 link)
      · rw [Part.relayAddress_link ((linkOf_eq_some_iff _ l).2 named)]
        exact if_pos enabled
    have forbidden : (s.toPart.setCountRx .wait).restartForbidden
        { link := l, target := target, station := station } (relayCodeOf code) = true ↔ reached := by
      rw [Part.restartForbidden_iff, relayCodeOf_eq_restart_iff, reaches]
      rfl
    have answer := headRelayRequest_addressed (tag := tag) (code := code) addressed
    refine ⟨fun unlocked => ?_, fun locked forbid => ?_, fun locked allowed full => ?_,
      fun locked allowed free => ?_⟩
    · exact relay forms (answer.trans (if_pos unlocked)) rfl
    · exact relay forms (answer.trans ((if_neg (not_not.2 locked)).trans (if_pos (forbidden.2 forbid)))) rfl
    · exact relay forms (answer.trans ((if_neg (not_not.2 locked)).trans
        ((if_neg (mt forbidden.1 allowed)).trans (if_pos full)))) rfl
    · exact relay forms (answer.trans ((if_neg (not_not.2 locked)).trans
        ((if_neg (mt forbidden.1 allowed)).trans (if_neg (Nat.not_le.2 free))))) rfl

end Sys2Proof.Machine
end

section
/-! SUPPORT. A link loss whole (R57): its heads one after the other (R44), with their decoders (R16), the sections
that they disturb (R43, R104) and the notices and marks offered (R109, R149, R153). -/

namespace Sys2Proof.Machine

/-! ## One head of a lost link -/

section

variable (p : Part) (h : HeadId)

theorem Part.loseHead_of_hit {p : Part} {h : HeadId}
    (hit : (p.head h).state = .acquiring ∨ (p.head h).state = .inService) :
    p.loseHead h = p.failHead h .linkLost := by
  rcases hit with state | state <;> simp [Part.loseHead, state]

theorem Part.loseHead_of_spared {p : Part} {h : HeadId}
    (spared : ¬ ((p.head h).state = .acquiring ∨ (p.head h).state = .inService)) : p.loseHead h = p := by
  unfold Part.loseHead
  cases state : (p.head h).state <;> simp_all

theorem Part.loseHead_head_ne {g : HeadId} (ne : g ≠ h) : (p.loseHead h).head g = p.head g := by
  by_cases hit : (p.head h).state = .acquiring ∨ (p.head h).state = .inService
  · rw [Part.loseHead_of_hit hit, Part.failHead_head, if_neg ne]
  · rw [Part.loseHead_of_spared hit]

theorem Part.loseHead_decoder (g : HeadId) :
    (p.loseHead h).decoder g =
      if g = h ∧ (p.head h).state = .inService then (p.decoder g).rest else p.decoder g := by
  by_cases hit : (p.head h).state = .acquiring ∨ (p.head h).state = .inService
  · rw [Part.loseHead_of_hit hit, Part.failHead_decoder]
    split
    · rename_i own
      rw [own.1]
    · rfl
  · rw [Part.loseHead_of_spared hit, if_neg fun own => hit (.inr own.2)]

theorem Part.loseHead_sec (i : SectionId) :
    (p.loseHead h).sec i =
      if (p.head h).state = .inService ∧ (p.sectionCfg i).present = true ∧ (p.sectionCfg i).names h = true then
        (p.sec i).disturbUnlessDisturbed (.headFailed h .linkLost)
      else p.sec i := by
  by_cases hit : (p.head h).state = .acquiring ∨ (p.head h).state = .inService
  · rw [Part.loseHead_of_hit hit, Part.failHead_sec]
  · rw [Part.loseHead_of_spared hit, if_neg fun own => hit (.inr own.1)]

/-- The sections that join the report queue as one head of a lost link fails. -/
theorem Part.loseHead_queue :
    (p.loseHead h).report.queue = p.report.queue ++
      if (p.head h).state = .inService then
        (List.finRange 24).filter fun i =>
          (p.sectionCfg i).present && (p.sectionCfg i).names h && decide ((p.sec i).state ≠ .disturbed) &&
            decide (i ∉ p.report.queue)
      else [] := by
  by_cases service : (p.head h).state = .inService
  · rw [Part.loseHead_of_hit (.inr service), Part.failHead_eq_of_inService service, if_pos service]
  · rw [if_neg service, List.append_nil]
    by_cases hit : (p.head h).state = .acquiring ∨ (p.head h).state = .inService
    · rw [Part.loseHead_of_hit hit, Part.failHead_of_out service, Part.offer_report, (ReportUnit.offer_keeps _ _).1]
      rfl
    · rw [Part.loseHead_of_spared hit]

end

@[simp] theorem SectionRec.disturbUnlessDisturbed_state (r : SectionRec) (c : Cause) :
    (r.disturbUnlessDisturbed c).state = .disturbed := by
  unfold SectionRec.disturbUnlessDisturbed
  split
  · assumption
  · rfl

/-- A section that one head has disturbed is left by those after it. -/
theorem SectionRec.disturbUnlessDisturbed_again (r : SectionRec) (c d : Cause) :
    (r.disturbUnlessDisturbed c).disturbUnlessDisturbed d = r.disturbUnlessDisturbed c :=
  if_pos (r.disturbUnlessDisturbed_state c)

/-- The notices of the heads that fail. -/
def Part.lossNotices (p : Part) (heads : List HeadId) : List Notice :=
  (heads.filter fun h => decide ((p.head h).state = .acquiring) || decide ((p.head h).state = .inService)).map
    fun h => .headState h .failed .linkLost

/-- The report unit beside its queue, as one head of a lost link fails. -/
theorem Part.loseHead_report (p : Part) (h : HeadId) :
    (p.loseHead h).report =
      { (p.lossNotices [h]).foldl ReportUnit.offer p.report with queue := (p.loseHead h).report.queue } := by
  by_cases hit : (p.head h).state = .acquiring ∨ (p.head h).state = .inService
  · have noticed : p.lossNotices [h] = [.headState h .failed .linkLost] := by
      simpa [Part.lossNotices] using hit
    rw [noticed, Part.loseHead_of_hit hit]
    by_cases service : (p.head h).state = .inService
    · rw [Part.failHead_eq_of_inService service]
      rfl
    · rw [Part.failHead_of_out service]
      rfl
  · have silent : p.lossNotices [h] = [] := by
      simpa [Part.lossNotices] using hit
    rw [silent, Part.loseHead_of_spared hit]
    rfl

theorem Part.lossNotices_cons (p : Part) (h : HeadId) (heads : List HeadId) :
    p.lossNotices (h :: heads) = p.lossNotices [h] ++ p.lossNotices heads := by
  unfold Part.lossNotices
  rw [← List.map_append, ← List.filter_append, List.singleton_append]

/-- A notice offered does not look at the report queue. -/
theorem ReportUnit.foldl_offer_queue (notices : List Notice) (r : ReportUnit) (queue : List SectionId) :
    notices.foldl ReportUnit.offer { r with queue := queue } =
      { notices.foldl ReportUnit.offer r with queue := queue } := by
  induction notices generalizing r with
  | nil => rfl
  | cons n notices ih =>
    have offered : ({ r with queue := queue } : ReportUnit).offer n = { r.offer n with queue := queue } := by
      rw [ReportUnit.offer_eq, ReportUnit.offer_eq]
      rfl
    rw [List.foldl_cons, offered, ih, List.foldl_cons]

/-! ## The heads of a lost link -/

/-- The head that disturbs a section: the first of the heads lost that was IN_SERVICE and bounds it. -/
def Part.disturberOf (p : Part) (heads : List HeadId) (i : SectionId) : Option HeadId :=
  heads.find? fun h => decide ((p.head h).state = .inService) && (p.sectionCfg i).names h

/-- The sections that a head disturbs and marks, of those that no head before it has disturbed. -/
def Part.markedBy (p : Part) (heads : List HeadId) (h : HeadId) : List SectionId :=
  (List.finRange 24).filter fun i =>
    (p.sectionCfg i).present && decide ((p.sec i).state ≠ .disturbed) && decide (i ∉ p.report.queue) &&
      decide (p.disturberOf heads i = some h)

section

variable {p : Part} {h : HeadId} {heads : List HeadId}

theorem Part.disturberOf_cons_of_bounds {i : SectionId}
    (bounds : (p.head h).state = .inService ∧ (p.sectionCfg i).names h = true) :
    p.disturberOf (h :: heads) i = some h := by
  simp [Part.disturberOf, bounds]

theorem Part.disturberOf_cons_of_other {i : SectionId}
    (other : ¬ ((p.head h).state = .inService ∧ (p.sectionCfg i).names h = true)) :
    p.disturberOf (h :: heads) i = p.disturberOf heads i := by
  unfold Part.disturberOf
  rw [List.find?_cons_of_neg]
  simpa using other

theorem Part.mem_of_disturberOf {i : SectionId} (found : p.disturberOf heads i = some h) : h ∈ heads :=
  List.mem_of_find?_eq_some found

section

variable (fresh : h ∉ heads)

include fresh

theorem Part.loseHead_head_mem {g : HeadId} (mem : g ∈ heads) : (p.loseHead h).head g = p.head g :=
  p.loseHead_head_ne h fun e => fresh (e ▸ mem)

theorem Part.loseHead_disturberOf (i : SectionId) :
    (p.loseHead h).disturberOf heads i = p.disturberOf heads i := by
  unfold Part.disturberOf
  refine List.find?_congr fun g mem => ?_
  simp [Part.loseHead_head_mem fresh mem]

theorem Part.loseHead_lossNotices : (p.loseHead h).lossNotices heads = p.lossNotices heads := by
  unfold Part.lossNotices
  refine congrArg _ (List.filter_congr fun g mem => ?_)
  rw [Part.loseHead_head_mem fresh mem]

/-- What the heads after it disturb and mark does not depend on whether the first has failed already. -/
theorem Part.loseHead_markedBy {g : HeadId} (mem : g ∈ heads) :
    (p.loseHead h).markedBy heads g = p.markedBy (h :: heads) g := by
  unfold Part.markedBy
  refine List.filter_congr fun i _ => ?_
  rw [Part.loseHead_disturberOf fresh, Part.loseHead_sec, Part.loseHead_queue]
  by_cases bounds : (p.head h).state = .inService ∧ (p.sectionCfg i).names h = true
  · have ne : h ≠ g := fun e => fresh (e ▸ mem)
    by_cases present : (p.sectionCfg i).present = true
    · simp [Part.disturberOf_cons_of_bounds bounds, bounds, present, ne]
    · simp [present]
  · have unnamed : (p.head h).state = .inService → (p.sectionCfg i).names h = false := fun service =>
      Bool.eq_false_iff.2 fun names => bounds ⟨service, names⟩
    rw [Part.disturberOf_cons_of_other bounds, if_neg fun all => bounds ⟨all.1, all.2.2⟩]
    by_cases service : (p.head h).state = .inService
    · simp [service, unnamed service]
    · simp [service]

theorem Part.markedBy_first (service : (p.head h).state = .inService) :
    p.markedBy (h :: heads) h = (List.finRange 24).filter fun i =>
      (p.sectionCfg i).present && (p.sectionCfg i).names h && decide ((p.sec i).state ≠ .disturbed) &&
        decide (i ∉ p.report.queue) := by
  unfold Part.markedBy
  refine List.filter_congr fun i _ => ?_
  have own : p.disturberOf (h :: heads) i = some h ↔ (p.sectionCfg i).names h = true := by
    by_cases names : (p.sectionCfg i).names h = true
    · simp [Part.disturberOf_cons_of_bounds ⟨service, names⟩, names]
    · rw [Part.disturberOf_cons_of_other fun bounds => names bounds.2]
      exact iff_of_false (fun found => fresh (Part.mem_of_disturberOf found)) names
  simp only [own, Bool.decide_eq_true, Bool.and_assoc, Bool.and_comm]

end

/-- The sections of a lost link's heads: each enters DISTURBED by the first head that disturbs it (R104). -/
theorem Part.foldl_loseHead_sec (distinct : heads.Nodup) (p : Part) (i : SectionId) :
    (heads.foldl (fun q h => q.loseHead h) p).sec i =
      match p.disturberOf heads i with
      | some h =>
        if (p.sectionCfg i).present = true then (p.sec i).disturbUnlessDisturbed (.headFailed h .linkLost)
        else p.sec i
      | none => p.sec i := by
  induction heads generalizing p with
  | nil => rfl
  | cons h heads ih =>
    obtain ⟨fresh, distinct⟩ := List.nodup_cons.1 distinct
    rw [List.foldl_cons, ih distinct, Part.loseHead_disturberOf fresh, Part.loseHead_sec]
    by_cases bounds : (p.head h).state = .inService ∧ (p.sectionCfg i).names h = true
    · rw [Part.disturberOf_cons_of_bounds bounds]
      by_cases present : (p.sectionCfg i).present = true
      · cases p.disturberOf heads i <;> simp [bounds, present, SectionRec.disturbUnlessDisturbed_again]
      · cases p.disturberOf heads i <;> simp [present]
    · rw [Part.disturberOf_cons_of_other bounds, if_neg fun all => bounds ⟨all.1, all.2.2⟩]
      simp only [Part.loseHead_reads]

theorem Part.foldl_loseHead_decoder (distinct : heads.Nodup) (p : Part) (g : HeadId) :
    (heads.foldl (fun q h => q.loseHead h) p).decoder g =
      if g ∈ heads ∧ (p.head g).state = .inService then (p.decoder g).rest else p.decoder g := by
  induction heads generalizing p with
  | nil => simp
  | cons h heads ih =>
    obtain ⟨fresh, distinct⟩ := List.nodup_cons.1 distinct
    rw [List.foldl_cons, ih distinct, Part.loseHead_decoder]
    by_cases own : g = h
    · subst own
      simp [fresh]
    · simp [own, p.loseHead_head_ne h own]

theorem Part.foldl_loseHead_queue (distinct : heads.Nodup) (p : Part) :
    (heads.foldl (fun q h => q.loseHead h) p).report.queue = p.report.queue ++
      (heads.filter fun h => decide ((p.head h).state = .inService)).flatMap (p.markedBy heads) := by
  induction heads generalizing p with
  | nil => simp
  | cons h heads ih =>
    obtain ⟨fresh, distinct⟩ := List.nodup_cons.1 distinct
    have later : (heads.filter fun g => decide (((p.loseHead h).head g).state = .inService)).flatMap
          ((p.loseHead h).markedBy heads) =
        (heads.filter fun g => decide ((p.head g).state = .inService)).flatMap (p.markedBy (h :: heads)) := by
      rw [List.filter_congr fun g mem => by rw [Part.loseHead_head_mem fresh mem]]
      refine List.flatMap_congr fun g mem => Part.loseHead_markedBy fresh (List.mem_of_mem_filter mem)
    rw [List.foldl_cons, ih distinct, later, Part.loseHead_queue, List.filter_cons]
    by_cases service : (p.head h).state = .inService
    · simp [service, Part.markedBy_first fresh service]
    · simp [service]

theorem Part.foldl_loseHead_link (p : Part) (heads : List HeadId) (l : LinkId) :
    (heads.foldl (fun q h => q.loseHead h) p).link l = p.link l := by
  induction heads generalizing p with
  | nil => rfl
  | cons h heads ih => simp [ih]

/-- The report unit beside its queue: the notices of the heads that fail, in order (R46). -/
theorem Part.foldl_loseHead_report (distinct : heads.Nodup) (p : Part) :
    (heads.foldl (fun q h => q.loseHead h) p).report =
      { (p.lossNotices heads).foldl ReportUnit.offer p.report with
        queue := (heads.foldl (fun q h => q.loseHead h) p).report.queue } := by
  induction heads generalizing p with
  | nil => rfl
  | cons h heads ih =>
    obtain ⟨fresh, distinct⟩ := List.nodup_cons.1 distinct
    rw [List.foldl_cons, ih distinct, Part.loseHead_lossNotices fresh, Part.loseHead_report,
      ReportUnit.foldl_offer_queue, Part.lossNotices_cons p h heads, List.foldl_append]

end

/-! ## The loss -/

/-- The part when a link that was LOCKED has entered SEARCH, its run 0 and its latch set (R57). -/
def Part.searching (p : Part) (l : LinkId) (polarity : Polarity) : Part :=
  (p.setLink l { p.link l with mode := .search none, run := 0, latch := true }).offer (.linkState l .search polarity)

theorem Part.linkLoss_eq {p : Part} {l : LinkId} {polarity : Polarity} {rx : Rx}
    (mode : (p.link l).mode = .locked polarity rx) :
    p.linkLoss l =
      ((p.activeTable.headsOfLink l).foldl (fun q h => q.loseHead h) (p.searching l polarity)).cancelRelays l
        fun _ => true := by
  simp only [Part.linkLoss, LinkRec.polarityHeld, mode]
  rfl

section

variable (p : Part) (l : LinkId) (polarity : Polarity)

theorem Part.searching_link :
    (p.searching l polarity).link l = { p.link l with mode := .search none, run := 0, latch := true } := by
  simp [Part.searching]

theorem Part.searching_link_ne {m : LinkId} (ne : m ≠ l) : (p.searching l polarity).link m = p.link m := by
  simp [Part.searching, Part.link_setLink_ne _ _ ne]

theorem Part.searching_queue : (p.searching l polarity).report.queue = p.report.queue :=
  (ReportUnit.offer_keeps _ _).1

theorem Part.searching_markedBy (heads : List HeadId) :
    (p.searching l polarity).markedBy heads = p.markedBy heads := by
  unfold Part.markedBy
  rw [Part.searching_queue]
  rfl

end

/-- A section disturbed, unless it is DISTURBED already, as one test. -/
theorem SectionRec.disturbUnlessDisturbed_if (r : SectionRec) (c : Cause) (bounds : Prop) [Decidable bounds] :
    (if bounds then r.disturbUnlessDisturbed c else r) =
      if bounds ∧ r.state ≠ .disturbed then r.disturb c else r := by
  unfold SectionRec.disturbUnlessDisturbed
  by_cases bounded : bounds <;> by_cases disturbed : r.state = .disturbed <;> simp [bounded, disturbed]

/-- A LOCKED link lost, whatever its run was (R57). -/
theorem Part.linkLoss_lostTo {p : Part} {l : LinkId} {polarity : Polarity} {rx : Rx}
    (mode : (p.link l).mode = .locked polarity rx) : p.lostTo (p.linkLoss l) l polarity (p.link l).counts := by
  have distinct := p.activeTable.headsOfLink_nodup l
  have shape := Part.linkLoss_eq mode
  constructor
  case link =>
    rw [shape, Part.cancelRelays_link, if_pos rfl, Part.foldl_loseHead_link, Part.searching_link]
    cases (p.link l).queue <;> simp
  case others =>
    intro m ne
    rw [shape, Part.cancelRelays_link, if_neg ne, Part.foldl_loseHead_link, Part.searching_link_ne _ _ _ ne]
  case heads =>
    intro h
    rw [Part.linkLoss_head, ite_and]
    rfl
  case decoders =>
    intro h
    simp only [shape, Part.cancelRelays_reads]
    exact Part.foldl_loseHead_decoder distinct _ h
  case sections =>
    intro i
    simp only [shape, Part.cancelRelays_reads]
    rw [Part.foldl_loseHead_sec distinct]
    simp only [SectionRec.disturbUnlessDisturbed_if]
    rfl
  case report =>
    rw [shape, Part.cancelRelays_report, Part.foldl_loseHead_link, Part.searching_link,
      Part.foldl_loseHead_report distinct, ReportUnit.foldl_offer_queue, Part.foldl_loseHead_queue distinct,
      Part.searching_queue, Part.searching_markedBy, List.foldl_append, List.foldl_append, List.filter_true]
    rfl
  case rest =>
    have kept := p.linkLoss_keeps l
    generalize p.linkLoss l = q at kept
    cases p
    cases q
    simp_all

/-- The bad frame that loses a link is counted before (R57). -/
theorem Part.badFrame_lostTo {p : Part} {l : LinkId} {polarity : Polarity} {rx : Rx}
    (mode : (p.link l).mode = .locked polarity rx) (reached : p.threshold l ≤ (p.link l).run + 1)
    (kind : BadFrame) (after : Rx) :
    p.lostTo (p.badFrame l kind after) l polarity ((p.link l).counts.raise kind) := by
  rw [Part.badFrame_above reached, LinkRec.withRx_locked mode]
  have lost := Part.linkLoss_lostTo (p := p.setLink l { p.link l with
    mode := .locked polarity after, run := (p.link l).run + 1, counts := (p.link l).counts.raise kind })
    (l := l) (by rw [Part.link_setLink])
  obtain ⟨link, others, heads, decoders, sections, report, rest⟩ := lost
  rw [Part.link_setLink] at link report
  exact ⟨link, fun m ne => (others m ne).trans (Part.link_setLink_ne _ _ ne), heads, decoders, sections, report,
    rest⟩

/-- Settles O12: the loss by the state of each head and section before it, the commands that bring each kind of
bad frame, and the gap that ends a telegram. -/
theorem headLinkIsLost : Obligations.HeadLinkIsLost := by
  refine ⟨?_, fun s l polarity rx settled listens => ⟨fun octet miss waits => ?_, fun station length bad => ?_,
    fun octets unfinished => ?_, fun octets whole bad => ?_, fun station kind body nonempty fits malformed => ?_⟩,
    fun s l polarity octets awake mode idle => ?_⟩
  · rintro p l polarity rx after kind counts mode reached rfl
    have lost := Part.badFrame_lostTo mode reached kind after
    cases kind <;> exact lost
  · exact exec_syncMiss_of_wait settled listens miss waits
  · exact exec_lengthBadFrame_headLink settled listens station bad
  · exact exec_charTimeout_headLink settled listens unfinished
  · exact exec_crcBadFrame_headLink settled listens whole bad
  · exact exec_headStatusTelegram_format settled listens nonempty fits malformed
  · exact State.next_of_taken awake (Part.linkQuiet_of_frame mode idle)

end Sys2Proof.Machine
end

section
/-! SUPPORT. The tables that pass C1 to C8 (R82): the law reads the table manager and the image store alone, the
writes of these two keep it, and every event of the part is made of such writes. -/

namespace Sys2Proof.Machine

/-! ## The marker that an image is known by -/

/-- An image that reads as VALID or VALID_COMMISSIONED has one of the closing markers (R158). -/
theorem Image.marker_of_read {image : Image}
    (known : image.read = .valid ∨ image.read = .validCommissioned) :
    image.marker = .valid ∨ image.marker = .commissioned := by
  unfold Image.read at known
  cases marker : image.marker with
  | valid => exact .inl rfl
  | commissioned => exact .inr rfl
  | blank | writing => simp [marker] at known

namespace Part.TablesSound

variable {p q : Part}

/-! ## Writes of the table manager and of the image store -/

/-- An operation that leaves both blocks. -/
theorem of_blocks (sound : p.TablesSound) (tables : q.tables = p.tables) (image : q.image = p.image) :
    q.TablesSound := by
  obtain ⟨staging, active, marked, known, storing, commissioned⟩ := sound
  refine ⟨?_, ?_, ?_, ?_, ?_, ?_⟩
  · rwa [Part.StagingSound, tables]
  · rwa [Part.ActiveSound, tables]
  · rwa [image]
  · rwa [image]
  · rwa [image]
  · rwa [image]

theorem setTables (sound : p.TablesSound) {t : TableManager}
    (staging : ∀ crc, t.stagingState = .checked crc → t.staging.firstFailure = none)
    (active : ∀ a, t.active = some a → a.table.firstFailure = none) : (p.setTables t).TablesSound := by
  obtain ⟨marked, known, storing, commissioned⟩ := sound.stored
  exact ⟨staging, active, marked, known, storing, commissioned⟩

theorem setImage (sound : p.TablesSound) {i : ImageStore} (stored : (p.setImage i).StoredSound) :
    (p.setImage i).TablesSound :=
  ⟨sound.staging, sound.active, stored⟩

/-- An accepted operation leaves no image marked or known as valid, so that its own table is all there is to
say (R159). -/
theorem accept (sound : p.TablesSound) {op : StoreOp}
    (storing : ∀ t crc, op = .store t crc → t.firstFailure = none)
    (commissioned : op = .commission → p.image.image.body.table.firstFailure = none) :
    (p.setImage (p.image.accept op)).TablesSound :=
  sound.setImage
    { marked := by simp [ImageStore.accept]
      known := by simp [ImageStore.accept]
      storing := storing
      commissioned := commissioned }

/-- The end of an operation leaves none in flight (R159). -/
theorem finishStore (sound : p.TablesSound) (kind : StoreKind) (result : StoreResult) {image : Image}
    {state : ImageState} (crc : Option Crc)
    (marked : image.marker = .valid ∨ image.marker = .commissioned → image.body.table.firstFailure = none)
    (known : state = .valid ∨ state = .validCommissioned → image.body.table.firstFailure = none) :
    (p.finishStore kind result image state crc).TablesSound := by
  have finished : (p.setImage (ImageStore.finish image state)).TablesSound :=
    sound.setImage
      { marked := marked
        known := known
        storing := by simp [ImageStore.finish]
        commissioned := by simp [ImageStore.finish] }
  exact finished.of_blocks rfl rfl

/-! ## Requests on the staging table -/

/-- A staging table that changes is EDITING, and no longer CHECKED (R125, R128). -/
theorem editStaging (sound : p.TablesSound) (staging : Table) (lastCheck : CheckResult) :
    (p.setTables { p.tables with
      staging := staging, stagingState := .editing, lastCheck := lastCheck }).TablesSound :=
  sound.setTables (by simp) sound.active

theorem tableWriteRequest (sound : p.TablesSound) (body : List Octet) :
    (tableWriteRequest body p).1.TablesSound := by
  unfold Machine.tableWriteRequest
  split
  · exact sound
  · split
    · exact sound
    · split
      · exact sound.editStaging _ _
      · exact sound

theorem headAdoptRequest (sound : p.TablesSound) (body : List Octet) :
    (headAdoptRequest body p).1.TablesSound := by
  unfold Machine.headAdoptRequest
  split
  · exact sound
  · split
    · exact sound
    · exact sound.editStaging _ _

/-- The copy of the active table is CHECKED, as the active table passes (R130). -/
theorem tableCopyRequest (sound : p.TablesSound) (body : List Octet) :
    (tableCopyRequest body p).1.TablesSound := by
  unfold Machine.tableCopyRequest
  split
  · exact sound
  · rename_i a active
    exact sound.setTables (fun _ _ => sound.active a active) sound.active

/-- The check itself is what a CHECKED table has passed (R131). -/
theorem tableCheckRequest (sound : p.TablesSound) (body : List Octet) :
    (tableCheckRequest body p).1.TablesSound := by
  unfold Machine.tableCheckRequest
  split
  · rename_i passes
    exact sound.setTables (fun _ _ => passes) sound.active
  · exact sound.editStaging _ _

/-- An activation installs a CHECKED table, and its delta touches neither block (R132, R133). -/
theorem activate (sound : p.TablesSound) {crc : Crc} (checked : p.tables.stagingState = .checked crc) :
    (p.activate crc).TablesSound := by
  have installed : (p.setTables { p.tables with
      active := some { table := p.tables.staging, crc := crc } }).TablesSound := by
    refine sound.setTables sound.staging ?_
    rintro _ ⟨⟩
    exact sound.staging crc checked
  exact installed.of_blocks (by simp [Part.activate]) (by simp [Part.activate])

theorem tableActivateRequest (sound : p.TablesSound) (body : List Octet) :
    (tableActivateRequest body p).1.TablesSound := by
  unfold Machine.tableActivateRequest
  split
  · exact sound
  · split
    · exact sound.activate ‹_›
    · exact sound

/-! ## Requests on the image store -/

/-- A STORE writes the active table (R160). -/
theorem storeRequest (sound : p.TablesSound) (body : List Octet) : (storeRequest body p).1.TablesSound := by
  unfold Machine.storeRequest
  split_ifs
  · exact sound
  · exact sound
  · exact sound
  · split
    · exact sound
    · rename_i a active
      refine sound.accept ?_ nofun
      rintro _ _ ⟨⟩
      exact sound.active a active

/-- A COMMISSION marks an image that is known as VALID (R161). -/
theorem commissionRequest (sound : p.TablesSound) (body : List Octet) :
    (commissionRequest body p).1.TablesSound := by
  unfold Machine.commissionRequest
  split_ifs with busy invalid other
  · exact sound
  · exact sound
  · exact sound
  · exact sound.accept nofun fun _ => sound.stored.known (.inl (not_not.1 invalid))

theorem eraseStoreRequest (sound : p.TablesSound) (body : List Octet) :
    (eraseStoreRequest body p).1.TablesSound := by
  unfold Machine.eraseStoreRequest
  split
  · exact sound
  · exact sound.accept nofun nofun

/-- A request of any owner: those on tables and on the image by their own lemmas, every other because it changes
neither. -/
theorem request : ∀ owner ∈ requestOwners, ∀ body p, p.TablesSound → (owner body p).1.TablesSound := by
  have plain {owner : List Octet → Part → Part × Answer}
      (kept : ∀ body p, (owner body p).1.tables = p.tables ∧ (owner body p).1.image = p.image) :
      ∀ body p, p.TablesSound → (owner body p).1.TablesSound := by
    intro body p sound
    obtain ⟨tables, image⟩ := kept body p
    exact sound.of_blocks tables image
  have halt (body : List Octet) (p : Part) : (haltRequest body p).1.tables = p.tables ∧
      (haltRequest body p).1.image = p.image := by
    unfold haltRequest
    split
    · simpa using foldl_keeps (fun q : Part => (q.tables, q.image))
        (fun q i => q.disturbUnlessDisturbed i .halt) (fun q i => by simp) p.activeTable.presentSections
        (p.setEvaluator .halted)
    · exact ⟨rfl, rfl⟩
  simp only [requestOwners, List.forall_mem_cons]
  refine ⟨plain fun _ _ => ⟨rfl, rfl⟩, plain ?_, plain ?_, plain halt, plain ?_, plain ?_, plain ?_,
    fun body _ sound => sound.headAdoptRequest body, plain ?_, plain ?_,
    fun body _ sound => sound.tableWriteRequest body, plain ?_,
    fun body _ sound => sound.tableCopyRequest body, fun body _ sound => sound.tableCheckRequest body,
    fun body _ sound => sound.tableActivateRequest body, fun body _ sound => sound.storeRequest body,
    fun body _ sound => sound.commissionRequest body, fun body _ sound => sound.eraseStoreRequest body,
    plain fun _ _ => ⟨rfl, rfl⟩, plain ?_, plain fun _ _ => ⟨rfl, rfl⟩, List.forall_mem_nil _⟩
  all_goals
    intro body p
    simp only [sectionQueryRequest, startRequest, sectionResetRequest, headQueryRequest, headReleaseRequest,
      linkQueryRequest, headRelayRequest, tableReadRequest, proceedRequest]
    (repeat' split) <;> simp

/-! ## The ends of a store operation -/

/-- What is written passes where the image ends marked; where it ends WRITING there is nothing to pass (R160,
R161). -/
theorem verify (sound : p.TablesSound) (written : ImageBody) (passes : written.table.firstFailure = none)
    (kind : StoreKind) (read : Table) (marker : Marker) (state : ImageState) :
    (p.verify kind written read marker state).TablesSound := by
  unfold Part.verify
  split
  · exact sound.finishStore _ _ _ (fun _ => passes) fun _ => passes
  · exact sound.finishStore _ _ _ (by simp) (by simp)

theorem writeCompletion (sound : p.TablesSound) (readBack : Option Table) :
    (p.writeCompletion readBack).TablesSound := by
  unfold Part.writeCompletion
  dsimp only
  cases op : p.image.op with
  | none => exact sound
  | store table crc => exact sound.verify ⟨table, crc⟩ (sound.stored.storing table crc op) _ _ _ _
  | commission => exact sound.verify p.image.image.body (sound.stored.commissioned op) _ _ _ _
  | erase => exact sound.finishStore _ _ _ (by simp) (by simp)

/-- An abandoned operation leaves the image as it stands, INVALID (R159). -/
theorem storeExpiry (sound : p.TablesSound) : p.storeExpiry.TablesSound := by
  obtain ⟨marked, known, storing, commissioned⟩ := sound.stored
  unfold Part.storeExpiry
  split
  · exact sound
  · split
    · exact sound.setImage ⟨marked, known, storing, commissioned⟩
    · exact sound.finishStore _ _ _ marked (by simp)

theorem expire (sound : p.TablesSound) (t : TimerId) : (p.expire t).TablesSound := by
  cases t with
  | store => exact sound.storeExpiry
  | silence | confirm | relay | holdLimit | reportCycle =>
    exact sound.of_blocks (by simp [Part.expire]) (by simp [Part.expire])

/-- A millisecond moves the store timer alone, which no table depends on. -/
theorem countDown (sound : p.TablesSound) : p.countDown.TablesSound := by
  obtain ⟨staging, active, marked, known, storing, commissioned⟩ := sound
  exact ⟨staging, active, marked, known, storing, commissioned⟩

/-! ## Full reset, start-up and every event -/

/-- A full reset leaves no table, no operation in flight, and the image with its state (R163). -/
theorem fullReset (sound : p.TablesSound) : p.fullReset.TablesSound where
  staging := nofun
  active := nofun
  stored :=
    { marked := sound.stored.marked
      known := sound.stored.known
      storing := nofun
      commissioned := nofun }

/-- The table that a start-up loads becomes the active and the CHECKED table (R163). -/
theorem startUpLoad (sound : p.TablesSound) {body : ImageBody}
    (passes : body.table.firstFailure = none) : (p.startUpLoad body).TablesSound := by
  have loaded : (p.setTables
      { active := some { table := body.table, crc := body.crc }, staging := body.table
        stagingState := .checked body.crc, lastCheck := .pass body.crc }).TablesSound := by
    refine sound.setTables (fun _ _ => passes) ?_
    rintro _ ⟨⟩
    exact passes
  have disturbed := foldl_inv Part.TablesSound (fun q i => q.disturb i .startUp)
    (fun _ _ sound => sound.of_blocks (by simp) (by simp)) body.table.presentSections _ loaded
  have evaluated := disturbed.of_blocks (q := Part.setEvaluator _
    (if body.table.global.startMode = 1 then .running else .halted)) rfl rfl
  have linked := foldl_inv Part.TablesSound
    (fun q l => if body.table.global.enabled[l] then q.setLink l (q.link l).toSearch else q)
    (fun _ l sound => by
      split
      · exact sound.of_blocks rfl rfl
      · exact sound) (List.finRange 4) _ evaluated
  exact linked.of_blocks rfl rfl

/-- The image that is loaded has a closing marker, and so its table passes (R158, R163). -/
theorem startUp (sound : p.TablesSound) : p.startUp.TablesSound := by
  obtain ⟨marked, -, storing, commissioned⟩ := sound.stored
  have known (valid : p.image.image.read = .valid ∨ p.image.image.read = .validCommissioned) :
      p.image.image.body.table.firstFailure = none := marked (Image.marker_of_read valid)
  have read : (p.setImage { p.image with state := p.image.image.read }).TablesSound :=
    sound.setImage ⟨marked, known, storing, commissioned⟩
  unfold Part.startUp
  dsimp only
  split
  · exact read.startUpLoad (known ‹_›)
  · exact read

theorem keptByLinkEvents : KeptByLinkEvents Part.TablesSound where
  setLink sound _ := sound.of_blocks rfl rfl
  offer _ sound := sound.of_blocks rfl rfl
  setMirrors _ sound := sound.of_blocks rfl rfl
  linkLoss sound := sound.of_blocks (by simp) (by simp)
  takeTelegram _ sound _ _ := sound.of_blocks (by simp) (by simp)

theorem keptUntilStartUp : KeptUntilStartUp Part.TablesSound where
  link := keptByLinkEvents
  setPins _ sound := sound.of_blocks rfl rfl
  fullReset sound := sound.fullReset
  setCount _ sound := sound.of_blocks rfl rfl
  request := request
  countDown sound := sound.countDown
  expire t sound := sound.expire t
  relayStart _ sound := sound.of_blocks (by simp) (by simp)
  relayEnd _ sound := sound.of_blocks (by simp) (by simp)
  writeCompletion readBack sound := sound.writeCompletion readBack
  endTransmission sound := sound.of_blocks (by simp) (by simp)
  afterEvent sound := sound.of_blocks (by simp) (by simp)

end Part.TablesSound

/-- Settles O57: a table becomes CHECKED by the checks or as a copy of one that passes, active from a CHECKED one
or from a marked image, and is written to the image from the active one; every other event leaves all of them. -/
theorem stepsKeepTablesSound : Obligations.StepsKeepTablesSound := by
  intro s t sound ran
  exact (Part.TablesSound.keptUntilStartUp.keptByEvents fun _ reset => reset.startUp).step sound ran

end Sys2Proof.Machine
end

section
/-! SUPPORT. What the three laws over sections see of an event (Laws 1, 2 and 3): the section records move by the
rules of chapter 05, a head leaves service only with its sections DISTURBED (R104), and the rest of what the laws
read stays. A property that such moves keep is kept by every event short of a request and a full reset. -/

namespace Sys2Proof.Machine

/-! ## The moves of a section's record -/

/-- What an event may make of a section's record, with the active table and the evaluator as they are: it reads
the latch, runs or stops the timer, applies a wheel or disturbs where the section is present, or ends the
CLEARING (R94, R101, R102, R108). -/
inductive SectionRec.Move (cfg : SectionRecord) (running : Prop) (r : SectionRec) : SectionRec → Prop where
  | stay : Move cfg running r r
  | latch (b : Bool) : Move cfg running r { r with latch := b }
  | timer (t : Timer) : Move cfg running r { r with confirm := t }
  | wheel (inward : Bool) : running → cfg.present = true → Move cfg running r (r.wheel cfg inward).1
  | disturb (c : Cause) : cfg.present = true → Move cfg running r (r.disturb c)
  | expire : r.state = .clearing → Move cfg running r { r with state := .clear, confirm := .stopped }

/-- A count that ends leaves the section CLEARING or CLEAR, with count 0 and no sweep (R97, R120). -/
theorem SectionRec.emptied_ends (cfg : SectionRecord) (r : SectionRec) :
    ((r.emptied cfg).state = .clearing ∨ (r.emptied cfg).state = .clear) ∧ (r.emptied cfg).count = 0 ∧
      (r.emptied cfg).sweep = false := by
  unfold SectionRec.emptied
  split <;> simp

@[simp] theorem SectionRec.disturb_state (r : SectionRec) (c : Cause) : (r.disturb c).state = .disturbed := rfl

theorem SectionRec.move_disturbUnlessDisturbed {cfg : SectionRecord} (present : cfg.present = true)
    (running : Prop) (r : SectionRec) (c : Cause) : r.Move cfg running (r.disturbUnlessDisturbed c) := by
  unfold SectionRec.disturbUnlessDisturbed
  split
  · exact .stay
  · exact .disturb c present

/-- A wheel leaves a DISTURBED and an ABSENT section as it is (R99). -/
theorem SectionRec.wheel_of_idle {r : SectionRec} (idle : r.state = .disturbed ∨ r.state = .absent)
    (cfg : SectionRecord) (inward : Bool) : r.wheel cfg inward = (r, false) := by
  rcases idle with state | state <;> cases inward <;>
    simp [SectionRec.wheel, SectionRec.inward, SectionRec.outward, state]

/-- No wheel takes a section to ABSENT (R95 to R98, R117 to R120). -/
theorem SectionRec.wheel_state_ne_absent {r : SectionRec} (cfg : SectionRecord) (inward : Bool)
    (state : r.state ≠ .absent) : (r.wheel cfg inward).1.state ≠ .absent := by
  have emptied : (r.emptied cfg).state ≠ .absent := by
    rcases (r.emptied_ends cfg).1 with e | e <;> simp [e]
  unfold SectionRec.wheel SectionRec.inward SectionRec.outward
  (repeat' split) <;> first | exact emptied | simp_all

namespace SectionRec.Move

variable {cfg : SectionRecord} {running : Prop} {r r' : SectionRec}

/-- Only SECTION RESET takes a section out of DISTURBED. -/
theorem disturbed (move : r.Move cfg running r') (state : r.state = .disturbed) : r'.state = .disturbed := by
  cases move with
  | stay | latch | timer => exact state
  | wheel inward => rwa [SectionRec.wheel_of_idle (.inl state)]
  | disturb => rfl
  | expire clearing => simp [state] at clearing

/-- Only an activation changes whether a section is ABSENT (R106). -/
theorem absent_iff (move : r.Move cfg running r') (absent : r.state = .absent ↔ cfg.present = false) :
    r'.state = .absent ↔ cfg.present = false := by
  cases move with
  | stay | latch | timer => exact absent
  | wheel inward _ present =>
    simp only [present, Bool.true_eq_false, iff_false] at absent ⊢
    exact SectionRec.wheel_state_ne_absent cfg inward absent
  | disturb _ present => simp [present]
  | expire clearing => simpa [clearing] using absent

end SectionRec.Move

/-! ## The moves of the part -/

/-- Nothing that the laws read changes, but that heads may come into service. -/
structure Part.Alike (p q : Part) : Prop where
  tables    : q.tables = p.tables
  evaluator : q.evaluator = p.evaluator
  sections  : q.sections = p.sections
  cycle     : q.report.cycleTimer = p.report.cycleTimer
  heads     : ∀ h, (p.head h).state = .inService → (q.head h).state = .inService

/-- The sections move, and a head that leaves service has every section that it bounds DISTURBED (R104). -/
structure Part.Moved (p q : Part) : Prop where
  tables    : q.tables = p.tables
  evaluator : q.evaluator = p.evaluator
  sections  : ∀ i, (p.sec i).Move (p.sectionCfg i) (p.evaluator = .running) (q.sec i)
  cycle     : q.report.cycleTimer = .stopped ↔ p.report.cycleTimer = .stopped
  heads     : ∀ h, (p.head h).state = .inService → (q.head h).state = .inService ∨
    ∀ i, (p.sectionCfg i).present = true → (p.sectionCfg i).names h = true → (q.sec i).state = .disturbed

theorem Part.sectionCfg_of_active {p q : Part} (active : q.tables.active = p.tables.active) (i : SectionId) :
    q.sectionCfg i = p.sectionCfg i := by
  simp [Part.sectionCfg, Part.activeTable, active]

theorem Part.Alike.moved {p q : Part} (alike : p.Alike q) : p.Moved q where
  tables := alike.tables
  evaluator := alike.evaluator
  sections i := by
    rw [show q.sec i = p.sec i by rw [Part.sec, alike.sections, ← Part.sec]]
    exact .stay
  cycle := by rw [alike.cycle]
  heads h service := .inl (alike.heads h service)

/-! ### Operations that leave the sections -/

namespace Part.Alike

variable {p q : Part}

/-- An operation that leaves the heads too. -/
theorem of_blocks (tables : q.tables = p.tables) (evaluator : q.evaluator = p.evaluator)
    (sections : q.sections = p.sections) (heads : q.heads = p.heads)
    (cycle : q.report.cycleTimer = p.report.cycleTimer) : p.Alike q :=
  ⟨tables, evaluator, sections, cycle, fun h => by rw [Part.head, Part.head, heads]; exact id⟩

theorem setHead {h : HeadId} {r : HeadRec}
    (service : (p.head h).state = .inService → r.state = .inService) : p.Alike (p.setHead h r) where
  tables := rfl
  evaluator := rfl
  sections := rfl
  cycle := rfl
  heads k was := by
    rw [Part.head_setHead_eq]
    split
    · rename_i e
      exact service (e ▸ was)
    · exact was

theorem setReport {r : ReportUnit} (cycle : r.cycleTimer = p.report.cycleTimer) : p.Alike (p.setReport r) :=
  of_blocks rfl rfl rfl rfl cycle

theorem setLink (p : Part) (l : LinkId) (k : LinkRec) : p.Alike (p.setLink l k) :=
  of_blocks rfl rfl rfl rfl rfl

theorem offer (p : Part) (n : Notice) : p.Alike (p.offer n) := setReport (by simp)

theorem mark (p : Part) (i : SectionId) : p.Alike (p.mark i) := setReport (by simp)

theorem completeRelay (p : Part) (l : LinkId) (r : RelayResult) : p.Alike (p.completeRelay l r) := by
  refine of_blocks (by simp) (by simp) (by simp) (by simp) ?_
  unfold Part.completeRelay
  split <;> simp

theorem relaySent (p : Part) (l : LinkId) : p.Alike (p.relaySent l) := by
  refine of_blocks (by simp) (by simp) (by simp) (by simp) ?_
  unfold Part.relaySent
  dsimp only
  split
  · rfl
  · split
    · split
      · rfl
      · exact (completeRelay p l .sent).cycle
    · rfl

theorem finishStore (p : Part) (kind : StoreKind) (result : StoreResult) (image : Image) (state : ImageState)
    (crc : Option Crc) : p.Alike (p.finishStore kind result image state crc) :=
  of_blocks rfl rfl rfl rfl (by simp [Part.finishStore])

theorem writeCompletion (p : Part) (readBack : Option Table) : p.Alike (p.writeCompletion readBack) := by
  have verify (kind : StoreKind) (written : ImageBody) (read : Table) (marker : Marker)
      (state : ImageState) : p.Alike (p.verify kind written read marker state) := by
    unfold Part.verify
    split <;> exact finishStore p _ _ _ _ _
  unfold Part.writeCompletion
  dsimp only
  split
  · exact of_blocks rfl rfl rfl rfl rfl
  · exact verify _ _ _ _ _
  · exact verify _ _ _ _ _
  · exact finishStore p _ _ _ _ _

theorem endTransmission (p : Part) : p.Alike p.endTransmission := by
  refine of_blocks (by simp) (by simp) (by simp) (by simp) ?_
  unfold Part.endTransmission
  split
  · rfl
  · dsimp only
    split <;> simp [ReportUnit.settleFlags, Part.dropReply]

end Part.Alike

/-! ### Operations that move sections -/

namespace Part.Moved

variable {p : Part}

theorem setSec {i : SectionId} {r : SectionRec}
    (move : (p.sec i).Move (p.sectionCfg i) (p.evaluator = .running) r) : p.Moved (p.setSec i r) where
  tables := rfl
  evaluator := rfl
  sections j := by
    rw [Part.sec_setSec_eq]
    split
    · rename_i e
      rwa [e]
    · exact .stay
  cycle := Iff.rfl
  heads _ service := .inl service

/-- The heads stay, and so does the report cycle. -/
theorem of_sections {q : Part} (tables : q.tables = p.tables) (evaluator : q.evaluator = p.evaluator)
    (heads : q.heads = p.heads) (cycle : q.report.cycleTimer = p.report.cycleTimer)
    (sections : ∀ i, (p.sec i).Move (p.sectionCfg i) (p.evaluator = .running) (q.sec i)) : p.Moved q where
  tables := tables
  evaluator := evaluator
  sections := sections
  cycle := by rw [cycle]
  heads h := by
    rw [Part.head, Part.head, heads]
    exact .inl

theorem wheelEvent (p : Part) (h : HeadId) (d : Dir) : p.Moved (p.wheelEvent h d) := by
  refine of_sections (by simp) (by simp) (by simp) ?_ fun i => ?_
  · unfold Part.wheelEvent
    split
    · refine foldl_keeps (fun q : Part => q.report.cycleTimer) _ (fun q item => ?_) _ p
      unfold Part.applyWheel
      dsimp only
      split <;> simp
    · rfl
  · rw [Part.wheelEvent_sec]
    split
    · rename_i applied
      obtain ⟨running, present⟩ := applied
      split
      · exact .wheel _ running present
      · exact .stay
    · exact .stay

/-- A head that fails out of service has the sections of its boundary index DISTURBED (R42, R104). -/
theorem failHead (p : Part) (h : HeadId) (c : HeadCause) : p.Moved (p.failHead h c) where
  tables := by simp
  evaluator := by simp
  sections i := by
    rw [Part.failHead_sec]
    split
    · rename_i signalled
      exact SectionRec.move_disturbUnlessDisturbed signalled.2.1 _ _ _
    · exact .stay
  cycle := by rw [(p.failHead_reportTimers h c).2]
  heads k service := by
    rw [Part.failHead_head]
    split
    · rename_i e
      refine .inr fun i present names => ?_
      rw [Part.failHead_sec, if_pos ⟨e ▸ service, present, e ▸ names⟩]
      simp
    · exact .inl service

theorem confirmExpiry (p : Part) (i : SectionId) : p.Moved (p.confirmExpiry i) := by
  refine of_sections (by simp) (by simp) (by simp) (p.confirmExpiry_reportTimers i).2 fun j => ?_
  by_cases own : j = i
  · subst own
    unfold Part.confirmExpiry
    dsimp only
    split
    · exact .stay
    · split
      · simpa using .expire ‹_›
      · simpa using .timer _
  · rw [p.confirmExpiry_sec_ne own]
    exact .stay

/-- The report cycle's timer starts again (R150). -/
theorem cycleExpiry (p : Part) : p.Moved p.cycleExpiry where
  tables := by simp
  evaluator := by simp
  sections i := by
    rw [show p.cycleExpiry.sec i = p.sec i by simp]
    exact .stay
  cycle := by
    unfold Part.cycleExpiry
    split
    · rfl
    · rename_i running
      simp [running]
  heads h service := .inl (by simpa using service)

theorem countDown (p : Part) : p.Moved p.countDown where
  tables := by simp
  evaluator := by simp
  sections i := by
    rw [Part.countDown_sec]
    exact .timer _
  cycle := not_iff_not.1 (Timer.countDown_ne_stopped _)
  heads h service := .inl (by simpa using service)

theorem afterEvent (p : Part) : p.Moved p.afterEvent := by
  refine of_sections (by simp) (by simp) (by simp) p.afterEvent_reportTimers.2 fun i => ?_
  obtain ⟨latch, read⟩ := p.afterEvent_sec i
  rw [read]
  exact .latch latch

end Part.Moved

/-! ## What such moves keep -/

/-- A restart and a lost sequence fault a head as a health block does (R27, R30, R34). -/
theorem Part.restartMarkerStep_eq (p : Part) (h : HeadId) :
    p.restartMarkerStep h = p.healthFault h .headRestarted := rfl

theorem Part.sequenceLossStep_eq (p : Part) (h : HeadId) :
    p.sequenceLossStep h = p.healthFault h .sequenceLoss := rfl

/-- A property that every move of the part keeps. -/
structure KeptByMoves (P : Part → Prop) : Prop where
  moved {p q : Part} : P p → p.Moved q → P q

namespace KeptByMoves

variable {P : Part → Prop} {p : Part}

theorem alike (kept : KeptByMoves P) {q : Part} (holds : P p) (alike : p.Alike q) : P q :=
  kept.moved holds alike.moved

theorem setLink (kept : KeptByMoves P) (l : LinkId) (k : LinkRec) (holds : P p) : P (p.setLink l k) :=
  kept.alike holds (.setLink p l k)

theorem offer (kept : KeptByMoves P) (n : Notice) (holds : P p) : P (p.offer n) :=
  kept.alike holds (.offer p n)

theorem failHead (kept : KeptByMoves P) (h : HeadId) (c : HeadCause) (holds : P p) : P (p.failHead h c) :=
  kept.moved holds (.failHead p h c)

theorem setCount (kept : KeptByMoves P) (c : CountLine) (holds : P p) : P (p.setCount c) :=
  kept.alike holds (.of_blocks rfl rfl rfl rfl rfl)

theorem setPins (kept : KeptByMoves P) (pins : Pins) (holds : P p) : P (p.setPins pins) :=
  kept.alike holds (.of_blocks rfl rfl rfl rfl rfl)

theorem afterEvent (kept : KeptByMoves P) (holds : P p) : P p.afterEvent :=
  kept.moved holds (.afterEvent p)

/-! ### The steps of a telegram (R24)

`KeptByTelegramSteps` lets a step take a head out of service without a failure, which Law 1 does not allow; so
the steps are followed here with the state that they leave. -/

theorem changeHead (kept : KeptByMoves P) {h : HeadId} {f : HeadRec → HeadRec}
    (service : (p.head h).state = .inService → (f (p.head h)).state = .inService) (holds : P p) :
    P (p.changeHead h f) :=
  kept.alike holds (.setHead service)

theorem restartRun (kept : KeptByMoves P) (h : HeadId) (holds : P p) :
    P (p.changeHead h HeadRec.restartRun) :=
  kept.changeHead id holds

theorem silenceStep (kept : KeptByMoves P) (h : HeadId) (holds : P p) : P (p.silenceStep h) := by
  unfold Part.silenceStep
  cases state : (p.head h).state with
  | absent =>
    have begun := kept.changeHead (h := h)
      (f := fun r => { r with state := .acquiring, run := 0, identityConfirmed := false })
      (by simp [state]) holds
    exact kept.offer _ (kept.changeHead id begun)
  | acquiring | inService => exact kept.changeHead id holds
  | failed => exact holds

theorem healthFault (kept : KeptByMoves P) (h : HeadId) (c : HeadCause) (holds : P p) :
    P (p.healthFault h c) := by
  unfold Part.healthFault
  cases (p.head h).state with
  | inService => exact kept.failHead h c holds
  | acquiring => exact kept.restartRun h holds
  | failed | absent => exact holds

theorem deliverEntry (kept : KeptByMoves P) (h : HeadId) (entry : Phase) (holds : P p) :
    P (p.deliverEntry h entry).1 := by
  have judged : P (p.setDecoder h ((p.decoder h).judge (p.headCfg h).rockLimit.toNat entry).1) :=
    kept.alike holds (.of_blocks rfl rfl rfl rfl rfl)
  unfold Part.deliverEntry
  dsimp only
  split
  · exact judged
  · exact kept.moved judged (.wheelEvent _ h _)
  · exact judged
  · exact kept.offer _ judged
  · exact judged

theorem deliver (kept : KeptByMoves P) (h : HeadId) (entries : List Phase) (holds : P p) :
    P (p.deliver h entries).1 := by
  induction entries generalizing p with
  | nil => exact holds
  | cons entry rest ih =>
    have delivered := kept.deliverEntry h entry holds
    unfold Part.deliver
    split <;> rename_i q e <;> rw [e] at delivered
    · exact delivered
    · exact ih delivered

theorem changeListInService (kept : KeptByMoves P) (h : HeadId) (t : HeadTelegram) (holds : P p) :
    P (p.changeListInService h t) := by
  have delivered := kept.deliver h t.changes holds
  unfold Part.changeListInService
  split <;> rename_i e <;> rw [e] at delivered
  · exact kept.failHead h _ delivered
  · split
    · exact delivered
    · exact kept.failHead h _ delivered

theorem changeListStep (kept : KeptByMoves P) (h : HeadId) (t : HeadTelegram) (holds : P p) :
    P (p.changeListStep h t) := by
  unfold Part.changeListStep
  cases state : (p.head h).state with
  | inService => exact kept.changeListInService h t holds
  | acquiring => exact kept.changeHead (by simp [state]) holds
  | failed | absent => exact holds

theorem bridgedStep (kept : KeptByMoves P) (h : HeadId) (missing : Nat) (t : HeadTelegram) (holds : P p) :
    P (p.bridgedStep h missing t) := by
  have offered := kept.offer (.gapBridged h missing) holds
  unfold Part.bridgedStep
  dsimp only
  cases ((p.offer (.gapBridged h missing)).head h).state with
  | inService => exact kept.changeListInService h t offered
  | acquiring => exact kept.restartRun h offered
  | failed | absent => exact offered

theorem healthStep (kept : KeptByMoves P) (h : HeadId) (t : HeadTelegram) (holds : P p) :
    P (p.healthStep h t) := by
  have levels {q : Part} (holds : P q) (b : Health) : P (q.levelsStep h b) := by
    unfold Part.levelsStep
    dsimp only
    split
    · exact kept.healthFault h _ holds
    · split
      · exact kept.healthFault h _ holds
      · exact holds
  have temperature {q : Part} (holds : P q) (old : Option Health) (b : Health) :
      P (q.temperatureStep h old b) := by
    unfold Part.temperatureStep
    dsimp only
    split_ifs
    · exact holds
    · exact kept.offer _ holds
  have identity {q : Part} (holds : P q) (b : Health) : P (q.identityStep h b) := by
    unfold Part.identityStep
    split
    · have learned := kept.changeHead (h := h) (f := fun r => { r with learned := some b.identity }) id holds
      dsimp only
      split
      · exact learned
      · exact kept.offer _ learned
    · split
      · cases (q.head h).state with
        | acquiring => exact kept.changeHead id holds
        | inService | failed | absent => exact holds
      · cases (q.head h).state with
        | acquiring | inService => exact kept.failHead h _ holds
        | failed | absent => exact holds
  unfold Part.healthStep
  cases t.health with
  | none => exact holds
  | some b =>
    have stored := kept.changeHead (h := h) (f := fun r => { r with health := some b }) id holds
    exact identity (temperature (levels stored b) _ b) b

theorem echoStep (kept : KeptByMoves P) (l : LinkId) (t : HeadTelegram) (holds : P p) : P (p.echoStep l t) := by
  unfold Part.echoStep Part.takeEcho
  split
  · exact holds
  · split
    · exact holds
    · split
      · exact kept.alike holds (.completeRelay p l .done)
      · exact holds

theorem admissionStep (kept : KeptByMoves P) (h : HeadId) (holds : P p) : P (p.admissionStep h) := by
  unfold Part.admissionStep
  cases (p.head h).state with
  | acquiring =>
    dsimp only
    split
    · have admitted : P (p.changeHead h fun r => { r with state := .inService }) :=
        kept.changeHead (fun _ => rfl) holds
      exact kept.offer _ (kept.alike admitted (.of_blocks rfl rfl rfl rfl rfl))
    · exact holds
  | inService | failed | absent => exact holds

theorem laterSteps (kept : KeptByMoves P) (l : LinkId) (h : HeadId) (t : HeadTelegram) (holds : P p) :
    P (p.laterSteps l h t) := by
  have echoed := kept.echoStep l t (kept.healthStep h t holds)
  exact kept.admissionStep h (kept.changeHead id echoed)

theorem takeTelegram (kept : KeptByMoves P) (l : LinkId) (h : HeadId) (t : HeadTelegram) (holds : P p) :
    P (p.takeTelegram l h t).1 := by
  have heard := kept.silenceStep h holds
  unfold Part.takeTelegram
  dsimp only
  split
  · exact kept.laterSteps l h t (Part.restartMarkerStep_eq _ h ▸ kept.healthFault h _ heard)
  · split
    · exact heard
    · exact kept.laterSteps l h t (kept.changeListStep h t heard)
    · exact kept.laterSteps l h t (kept.bridgedStep h _ t heard)
    · exact kept.laterSteps l h t (Part.sequenceLossStep_eq _ h ▸ kept.healthFault h _ heard)

/-! ### The head links -/

theorem cancelRelays (kept : KeptByMoves P) (l : LinkId) (picked : RelayCommand → Bool) (holds : P p) :
    P (p.cancelRelays l picked) := by
  have offered (cs : List RelayCommand) {q : Part} (holds : P q) :
      P (q.offerRelayResults l .cancelled cs) := by
    induction cs generalizing q with
    | nil => exact holds
    | cons c cs ih => exact ih (kept.offer _ holds)
  exact offered _ (kept.setLink l _ holds)

theorem linkLoss (kept : KeptByMoves P) (l : LinkId) (holds : P p) : P (p.linkLoss l) := by
  have lose (q : Part) (h : HeadId) (holds : P q) : P (q.loseHead h) := by
    unfold Part.loseHead
    cases (q.head h).state with
    | acquiring | inService => exact kept.failHead h _ holds
    | absent | failed => exact holds
  exact kept.cancelRelays l _ (foldl_inv P _ lose _ _ (kept.offer _ (kept.setLink l _ holds)))

theorem link (kept : KeptByMoves P) : KeptByLinkEvents P where
  setLink holds _ := kept.setLink _ _ holds
  offer n holds := kept.offer n holds
  setMirrors _ holds := kept.alike holds (.setReport rfl)
  linkLoss holds := kept.linkLoss _ holds
  takeTelegram t holds _ _ := kept.takeTelegram _ _ t holds

/-! ### Expiries, relay telegrams and transmissions -/

theorem silenceExpiry (kept : KeptByMoves P) (h : HeadId) (holds : P p) : P (p.silenceExpiry h) := by
  unfold Part.silenceExpiry
  split
  · exact holds
  · cases state : (p.head h).state with
    | acquiring => exact kept.offer _ (kept.changeHead (by simp [state]) holds)
    | inService => exact kept.failHead h _ holds
    | failed | absent => exact kept.changeHead id holds

theorem expire (kept : KeptByMoves P) (t : TimerId) (holds : P p) : P (p.expire t) := by
  cases t with
  | silence h => exact kept.silenceExpiry h holds
  | confirm i => exact kept.moved holds (.confirmExpiry p i)
  | relay l =>
    exact kept.alike holds (.of_blocks (by simp [Part.expire]) (by simp [Part.expire]) (by simp [Part.expire])
      (by simp [Part.expire]) (p.relayExpiry_reportTimers l).2)
  | holdLimit =>
    exact kept.alike holds (.of_blocks (by simp [Part.expire]) (by simp [Part.expire]) (by simp [Part.expire])
      (by simp [Part.expire]) p.holdExpiry_cycleTimer)
  | reportCycle => exact kept.moved holds (.cycleExpiry p)
  | store =>
    exact kept.alike holds (.of_blocks (by simp [Part.expire]) (by simp [Part.expire]) (by simp [Part.expire])
      (by simp [Part.expire]) p.storeExpiry_reportTimers.2)

theorem relayStart (kept : KeptByMoves P) (l : LinkId) (holds : P p) : P (p.relayStart l) :=
  kept.alike holds (.of_blocks (by simp) (by simp) (by simp) (by simp) (by simp))

theorem relayEnd (kept : KeptByMoves P) (l : LinkId) (holds : P p) : P (p.relayEnd l) := by
  unfold Part.relayEnd
  dsimp only
  split
  · exact holds
  · exact kept.alike (kept.setLink l _ holds) (.relaySent _ l)

end KeptByMoves

/-! ## The requests on sections and tables -/

/-- The part after an accepted HALT (R91). -/
def Part.halted (p : Part) : Part :=
  p.activeTable.presentSections.foldl (fun q i => q.disturbUnlessDisturbed i .halt) (p.setEvaluator .halted)

theorem haltRequest_running {p : Part} (running : p.evaluator = .running) (body : List Octet) :
    haltRequest body p = (p.halted, done []) := by
  simp [haltRequest, running, Part.halted]

theorem haltRequest_elsewhere {p : Part} (elsewhere : p.evaluator ≠ .running) (body : List Octet) :
    haltRequest body p = (p, refuse .state) := by
  simp [haltRequest, elsewhere]

/-- Every present section that is not DISTURBED enters it with cause HALT (R91, R102). -/
theorem Part.halted_sec (p : Part) (i : SectionId) :
    p.halted.sec i =
      if (p.sectionCfg i).present = true then (p.sec i).disturbUnlessDisturbed .halt else p.sec i :=
  (Part.foldl_sec (fun q i => q.disturbUnlessDisturbed i .halt) (fun _ r => r.disturbUnlessDisturbed .halt)
    (fun q i j => q.disturbUnlessDisturbed_sec i j _) _ p.activeTable.presentSections_nodup _ i).trans
      (if_congr (p.activeTable.mem_presentSections i) rfl rfl)

/-- HALT leaves what is not the evaluator's or the report unit's. -/
theorem Part.halted_keeps (p : Part) :
    p.halted.pins = p.pins ∧ p.halted.links = p.links ∧ p.halted.heads = p.heads ∧
      p.halted.decoders = p.decoders ∧ p.halted.tables = p.tables ∧ p.halted.count = p.count ∧
      p.halted.image = p.image ∧ p.halted.evaluator = .halted := by
  have kept := foldl_keeps
    (fun q : Part => (q.pins, q.links, q.heads, q.decoders, q.tables, q.count, q.image, q.evaluator))
    (fun q i => q.disturbUnlessDisturbed i .halt) (fun q i => by simp) p.activeTable.presentSections
    (p.setEvaluator .halted)
  simpa [Part.halted] using kept

/-- Present sections that enter DISTURBED join the report queue in ascending number, where they do not stand in it
already (R102, R149). -/
theorem Part.foldl_presentSections_report (p : Part) (c : Cause) :
    (p.activeTable.presentSections.foldl (fun q i => q.disturbUnlessDisturbed i c) p).report = { p.report with
      queue := p.report.queue ++ (List.finRange 24).filter fun i =>
        (p.sectionCfg i).present && decide ((p.sec i).state ≠ .disturbed) &&
          decide (i ∉ p.report.queue) } := by
  rw [Part.foldl_disturbUnlessDisturbed _ _ p.activeTable.presentSections_nodup,
    Part.foldl_marks (fun q i => q.disturb i _) _ (p.activeTable.presentSections_nodup.filter _) p
      fun _ _ _ => rfl, Table.presentSections, List.filter_filter, List.filter_filter]
  simp only [Part.sectionCfg, Bool.and_comm, Bool.and_assoc]

theorem Part.halted_report (p : Part) :
    p.halted.report = { p.report with
      queue := p.report.queue ++ (List.finRange 24).filter fun i =>
        (p.sectionCfg i).present && decide ((p.sec i).state ≠ .disturbed) &&
          decide (i ∉ p.report.queue) } :=
  (p.setEvaluator .halted).foldl_presentSections_report .halt

/-- What SECTION RESET, accepted, makes of the record of a DISTURBED section (R114, R115). -/
def SectionRec.ResetTo (r r' : SectionRec) : Prop :=
  r' = { r with state := .restoring, tally := 0 } ∨ r' = { r with state := .clear }

/-- SECTION RESET is accepted for a section, in RUNNING, and makes a record of its own (R111 to R115). -/
structure Part.MayReset (p : Part) (i : SectionId) (r : SectionRec) : Prop where
  running   : p.evaluator = .running
  present   : (p.sectionCfg i).present = true
  disturbed : (p.sec i).state = .disturbed
  ready     : ∀ h, (p.sectionCfg i).names h = true → (p.head h).state = .inService
  record    : (p.sec i).ResetTo r

theorem Part.inService_of_headNotReady {p : Part} {cfg : SectionRecord} (ready : p.headNotReady cfg = none)
    (h : HeadId) (names : cfg.names h = true) : (p.head h).state = .inService := by
  simpa [names] using List.find?_eq_none.1 ready h (List.mem_finRange h)

/-- SECTION RESET changes nothing, or it resets a section and marks it. -/
theorem sectionResetRequest_cases (body : List Octet) (p : Part) :
    (sectionResetRequest body p).1 = p ∨
      ∃ i r, p.MayReset i r ∧ (sectionResetRequest body p).1 = (p.setSec i r).mark i := by
  unfold sectionResetRequest
  split
  · exact .inl rfl
  · rename_i running
    split
    · exact .inl rfl
    · rename_i i _
      dsimp only
      split
      · exact .inl rfl
      · rename_i present
        split
        · exact .inl rfl
        · rename_i disturbed
          have may (ready : p.headNotReady (p.sectionCfg i) = none) {r : SectionRec}
              (record : (p.sec i).ResetTo r) : p.MayReset i r :=
            ⟨not_not.1 running, by simpa using present, not_not.1 disturbed,
              Part.inService_of_headNotReady ready, record⟩
          split
          · exact .inl rfl
          · split
            · exact .inl rfl
            · split
              · exact .inr ⟨i, _, may ‹_› (.inl rfl), rfl⟩
              · split
                · exact .inl rfl
                · exact .inr ⟨i, _, may ‹_› (.inr rfl), rfl⟩

/-- A staging table that is CHECKED passes its checks, or is a copy of the active table (R82, R130). -/
def TableManager.StagingFits (t : TableManager) : Prop :=
  ∀ crc, t.stagingState = .checked crc →
    t.staging.firstFailure = none ∨ ∃ a, t.active = some a ∧ a.table = t.staging

/-- A property that each request keeps. Those that touch no section, no table and no evaluator state are alike
to the laws. -/
structure KeptByRequests (P : Part → Prop) : Prop where
  alike {p q : Part} : P p → p.Alike q → P q
  setTables {p : Part} {t : TableManager} :
    P p → t.active = p.tables.active → t.StagingFits → P (p.setTables t)
  start {p : Part} : P p → p.evaluator = .halted → P (p.setEvaluator .running)
  halt {p : Part} : P p → p.evaluator = .running → P p.halted
  reset {p : Part} {i : SectionId} {r : SectionRec} : P p → p.MayReset i r → P (p.setSec i r)
  activate {p : Part} {crc : Crc} : P p → p.tables.stagingState = .checked crc → P (p.activate crc)

namespace KeptByRequests

variable {P : Part → Prop} {p : Part}

theorem startRequest (kept : KeptByRequests P) (body : List Octet) (holds : P p) :
    P (startRequest body p).1 := by
  unfold Machine.startRequest
  split
  · exact kept.start holds ‹_›
  · exact holds

theorem haltRequest (kept : KeptByRequests P) (body : List Octet) (holds : P p) :
    P (haltRequest body p).1 := by
  by_cases running : p.evaluator = .running
  · rw [haltRequest_running running]
    exact kept.halt holds running
  · rwa [haltRequest_elsewhere running]

theorem sectionResetRequest (kept : KeptByRequests P) (body : List Octet) (holds : P p) :
    P (sectionResetRequest body p).1 := by
  rcases sectionResetRequest_cases body p with same | ⟨i, r, may, whole⟩
  · rwa [same]
  · rw [whole]
    exact kept.alike (kept.reset holds may) (.mark _ i)

theorem headReleaseRequest (kept : KeptByRequests P) (body : List Octet) (holds : P p) :
    P (headReleaseRequest body p).1 := by
  unfold Machine.headReleaseRequest
  split
  · exact holds
  · split
    · exact holds
    · split
      · exact holds
      · rename_i h _ _ failed
        exact kept.alike (kept.alike holds (.setHead (h := h) (by simp [not_not.1 failed]))) (.offer _ _)

/-! ### The staging table (R128 to R132) -/

theorem editing (kept : KeptByRequests P) (staging : Table) (lastCheck : CheckResult) (holds : P p) :
    P (p.setTables { p.tables with
      staging := staging, stagingState := .editing, lastCheck := lastCheck }) :=
  kept.setTables holds rfl (by simp [TableManager.StagingFits])

theorem headAdoptRequest (kept : KeptByRequests P) (body : List Octet) (holds : P p) :
    P (headAdoptRequest body p).1 := by
  unfold Machine.headAdoptRequest
  split
  · exact holds
  · split
    · exact holds
    · exact kept.editing _ _ holds

theorem tableWriteRequest (kept : KeptByRequests P) (body : List Octet) (holds : P p) :
    P (tableWriteRequest body p).1 := by
  unfold Machine.tableWriteRequest
  split
  · exact holds
  · split
    · exact holds
    · split
      · exact kept.editing _ _ holds
      · exact holds

theorem tableCopyRequest (kept : KeptByRequests P) (body : List Octet) (holds : P p) :
    P (tableCopyRequest body p).1 := by
  unfold Machine.tableCopyRequest
  split
  · exact holds
  · rename_i a active
    exact kept.setTables holds rfl fun _ _ => .inr ⟨a, active, rfl⟩

theorem tableCheckRequest (kept : KeptByRequests P) (body : List Octet) (holds : P p) :
    P (tableCheckRequest body p).1 := by
  unfold Machine.tableCheckRequest
  split
  · rename_i passes
    exact kept.setTables holds rfl fun _ _ => .inl passes
  · exact kept.editing _ _ holds

theorem tableActivateRequest (kept : KeptByRequests P) (body : List Octet) (holds : P p) :
    P (tableActivateRequest body p).1 := by
  unfold Machine.tableActivateRequest
  split
  · exact holds
  · split
    · exact kept.activate holds ‹_›
    · exact holds

/-- A request of any owner. -/
theorem request (kept : KeptByRequests P) : ∀ owner ∈ requestOwners, ∀ body p, P p → P (owner body p).1 := by
  have plain {owner : List Octet → Part → Part × Answer}
      (same : ∀ body p, (owner body p).1.tables = p.tables ∧ (owner body p).1.evaluator = p.evaluator ∧
        (owner body p).1.sections = p.sections ∧ (owner body p).1.heads = p.heads ∧
        (owner body p).1.report.cycleTimer = p.report.cycleTimer) :
      ∀ body p, P p → P (owner body p).1 := by
    intro body p holds
    obtain ⟨tables, evaluator, sections, heads, cycle⟩ := same body p
    exact kept.alike holds (.of_blocks tables evaluator sections heads cycle)
  simp only [requestOwners, List.forall_mem_cons]
  refine ⟨plain ?_, plain ?_, fun body _ holds => kept.startRequest body holds,
    fun body _ holds => kept.haltRequest body holds, fun body _ holds => kept.sectionResetRequest body holds,
    plain ?_, fun body _ holds => kept.headReleaseRequest body holds,
    fun body _ holds => kept.headAdoptRequest body holds, plain ?_, plain ?_,
    fun body _ holds => kept.tableWriteRequest body holds, plain ?_,
    fun body _ holds => kept.tableCopyRequest body holds, fun body _ holds => kept.tableCheckRequest body holds,
    fun body _ holds => kept.tableActivateRequest body holds, plain ?_, plain ?_, plain ?_, plain ?_, plain ?_,
    plain ?_, List.forall_mem_nil _⟩
  all_goals
    intro body p
    simp only [statusQueryRequest, sectionQueryRequest, headQueryRequest, linkQueryRequest, headRelayRequest,
      tableReadRequest, storeRequest, commissionRequest, eraseStoreRequest, holdRequest, proceedRequest,
      noOwner]
    (repeat' split) <;> simp

end KeptByRequests

/-- A property that moves and requests keep, and a full reset, is kept by every event short of a start-up. -/
theorem KeptByMoves.keptUntilStartUp {P : Part → Prop} (moves : KeptByMoves P) (requests : KeptByRequests P)
    (fullReset : ∀ p : Part, P p.fullReset) : KeptUntilStartUp P where
  link := moves.link
  setPins pins holds := moves.setPins pins holds
  fullReset _ := fullReset _
  setCount c holds := moves.setCount c holds
  request := requests.request
  countDown holds := moves.moved holds (.countDown _)
  expire t holds := moves.expire t holds
  relayStart l holds := moves.relayStart l holds
  relayEnd l holds := moves.relayEnd l holds
  writeCompletion readBack holds := moves.alike holds (.writeCompletion _ readBack)
  endTransmission holds := moves.alike holds (.endTransmission _)
  afterEvent holds := moves.afterEvent holds

/-! ## An activation, record by record (R133 to R138) -/

/-- A section's record after an activation in which the section has a class (R105, R106). -/
def SectionRec.activated (r : SectionRec) : SectionClass → SectionRec
  | .changed => r.disturb .reconfigured
  | .new => r.appearing.disturb .reconfigured
  | .removed => r.gone
  | .unchanged => r
  | .untouched => r

theorem Part.activateSections_sec (p : Part) (old new : Table) (i : SectionId) :
    (p.activateSections old new).sec i = (p.sec i).activated (sectionClass old new i) := by
  have each := Part.foldl_sec (fun q i => q.activateSection old new i)
    (fun i r => r.activated (sectionClass old new i)) (fun q i j => by
      by_cases own : j = i
      · subst own
        unfold Part.activateSection
        cases sectionClass old new j <;> simp [Part.disturb_sec, SectionRec.activated]
      · unfold Part.activateSection
        cases sectionClass old new i <;> simp [Part.disturb_sec, Part.sec_setSec_ne, own])
    (List.finRange 24) (List.nodup_finRange 24) p i
  rw [Part.activateSections, each]
  simp

theorem Part.activateRest_evaluator (p : Part) (new : ActiveTable) (disturbed : Nat) :
    (p.activateRest new disturbed).evaluator =
      if p.evaluator = .unconfigured then .halted else p.evaluator := by
  unfold Part.activateRest
  dsimp only
  split <;> simp

theorem Part.activateRest_cycle (p : Part) (new : ActiveTable) (disturbed : Nat) :
    (p.activateRest new disturbed).report.cycleTimer =
      if p.evaluator = .unconfigured then .running new.table.global.reportCycle.toNat
      else p.report.cycleTimer := by
  unfold Part.activateRest
  dsimp only
  split <;> simp

theorem Part.cancelRelays_cycle (p : Part) (l : LinkId) (picked : RelayCommand → Bool) :
    (p.cancelRelays l picked).report.cycleTimer = p.report.cycleTimer := by
  rw [Part.cancelRelays_report]
  exact foldl_keeps ReportUnit.cycleTimer _ (fun r n => by simp) _ _

theorem Part.activateSection_cycle (p : Part) (old new : Table) (i : SectionId) :
    (p.activateSection old new i).report.cycleTimer = p.report.cycleTimer := by
  unfold Part.activateSection
  cases sectionClass old new i <;> simp

theorem Part.activateRelays_cycle (p : Part) (old new : Table) :
    (p.activateRelays old new).report.cycleTimer = p.report.cycleTimer := by
  unfold Part.activateRelays
  exact foldl_keeps (fun q : Part => q.report.cycleTimer) _ (fun q l => q.cancelRelays_cycle l _) _ p

theorem Part.activateSections_cycle (p : Part) (old new : Table) :
    (p.activateSections old new).report.cycleTimer = p.report.cycleTimer := by
  unfold Part.activateSections
  exact foldl_keeps (fun q : Part => q.report.cycleTimer) _ (fun q i => q.activateSection_cycle _ _ i) _ p

section

variable (p : Part) (crc : Crc)

@[simp] theorem Part.activate_tables : (p.activate crc).tables =
    { p.tables with active := some { table := p.tables.staging, crc := crc } } := by
  simp [Part.activate]

@[simp] theorem Part.activate_sectionCfg (i : SectionId) :
    (p.activate crc).sectionCfg i = p.tables.staging.sectionCfg i := by
  simp [Part.sectionCfg, Part.activeTable]

theorem Part.activate_sec (i : SectionId) : (p.activate crc).sec i =
    (p.sec i).activated (sectionClass p.activeTable p.tables.staging i) := by
  simp [Part.activate, Part.activateSections_sec]

theorem Part.activate_head (h : HeadId) : (p.activate crc).head h =
    if headCleared p.activeTable p.tables.staging h then (p.head h).cleared else p.head h := by
  simp [Part.activate, Part.activateHeads_head]

theorem Part.activate_evaluator : (p.activate crc).evaluator =
    if p.evaluator = .unconfigured then .halted else p.evaluator := by
  simp [Part.activate, Part.activateRest_evaluator]

/-- The report cycle starts with the first table, and no activation stops it (R138, R150). -/
theorem Part.activate_cycle : (p.activate crc).report.cycleTimer =
    if p.evaluator = .unconfigured then .running p.tables.staging.global.reportCycle.toNat
    else p.report.cycleTimer := by
  simp [Part.activate, Part.activateRest_cycle, Part.activateRelays_cycle,
    Part.activateSections_cycle]

end

/-! ### The classes of a section (R135) -/

section

variable {old new : Table} {i : SectionId}

/-- A section of the new table is DISTURBED by the activation, or it stood in the old table with the same list
and limit and none of its heads is remapped. -/
theorem SectionRec.activated_of_present (present : (new.sectionCfg i).present = true) (r : SectionRec) :
    (∃ r' : SectionRec, r.activated (sectionClass old new i) = r'.disturb .reconfigured) ∨
      (r.activated (sectionClass old new i) = r ∧ (old.sectionCfg i).present = true ∧
        (new.sectionCfg i).boundary = (old.sectionCfg i).boundary ∧
        (new.sectionCfg i).countLimit = (old.sectionCfg i).countLimit ∧
        ∀ h, (new.sectionCfg i).names h = true → remapped old new h = false) := by
  unfold sectionClass
  rw [if_pos present, if_pos present]
  split
  · rename_i before
    split
    · exact .inl ⟨r, rfl⟩
    · rename_i same
      simp only [sectionDiffers, Bool.or_eq_true, bne_iff_ne, ne_eq, List.any_eq_true, List.mem_finRange,
        true_and, Bool.and_eq_true, not_or, not_not, not_exists, not_and, Bool.not_eq_true] at same
      obtain ⟨⟨boundary, limit⟩, unmapped⟩ := same
      exact .inr ⟨rfl, before, boundary.symm, limit.symm, unmapped⟩
  · exact .inl ⟨r.appearing, rfl⟩

/-- A section that is not in the new table is ABSENT after the activation if it was ABSENT outside the old
(R106). -/
theorem SectionRec.activated_of_absent (absent : (new.sectionCfg i).present = false) {r : SectionRec}
    (before : (old.sectionCfg i).present = false → r.state = .absent) :
    (r.activated (sectionClass old new i)).state = .absent := by
  unfold sectionClass
  simp only [absent, Bool.false_eq_true, if_false]
  split
  · rfl
  · rename_i outside
    exact before (by simpa using outside)

end
end Sys2Proof.Machine
end

section
/-! SUPPORT. Law 3 (R89) with the configuration that it rests on (R88, R92, R150). -/

namespace Sys2Proof.Machine

/-! ## Full reset and start-up -/

@[simp] theorem Part.fullReset_sec (p : Part) (i : SectionId) : p.fullReset.sec i = SectionRec.reset := by
  simp [Part.sec, Part.fullReset, Part.resetValues]

/-- A start-up that loads a table takes the evaluator out of UNCONFIGURED and starts the report cycle (R126,
R163). -/
theorem Part.startUpLoad_configures (p : Part) (body : ImageBody) :
    (p.startUpLoad body).evaluator ≠ .unconfigured ∧
      (p.startUpLoad body).tables.active = some { table := body.table, crc := body.crc } ∧
      (p.startUpLoad body).report.cycleTimer = .running body.table.global.reportCycle.toNat := by
  let read (q : Part) := (q.evaluator, q.tables)
  have linked (ls : List LinkId) (q : Part) : read (ls.foldl
      (fun q l => if body.table.global.enabled[l] then q.setLink l (q.link l).toSearch else q) q) = read q :=
    foldl_keeps read _ (fun q l => by split <;> rfl) ls q
  have disturbed (is : List SectionId) (q : Part) :
      (is.foldl (fun q i => q.disturb i .startUp) q).tables = q.tables :=
    foldl_keeps Part.tables _ (fun q i => by simp) is q
  simp only [read, Prod.mk.injEq] at linked
  unfold Part.startUpLoad
  simp only [Part.setReport_evaluator, Part.setReport_tables, Part.setReport_report, linked,
    Part.setEvaluator_evaluator, Part.setEvaluator_tables, disturbed, Part.setTables_tables, and_self, and_true]
  split <;> simp

/-! ## While the evaluator is not RUNNING -/

/-- Law 3 with R88, R92 and R150. -/
structure Part.HaltSound (p : Part) : Prop where
  halted     : p.HaltedDisturbed
  configured : p.ConfiguredSound

namespace Part.HaltSound

variable {p q : Part}

/-- The active table, the evaluator and the report cycle stay as they are. -/
theorem of_sections (sound : p.HaltSound) (active : q.tables.active = p.tables.active)
    (evaluator : q.evaluator = p.evaluator)
    (cycle : q.report.cycleTimer = .stopped ↔ p.report.cycleTimer = .stopped)
    (disturbed : p.evaluator ≠ .running → ∀ i, (p.sectionCfg i).present = true →
      (p.sec i).state = .disturbed → (q.sec i).state = .disturbed)
    (absent : ∀ i, ((p.sec i).state = .absent ↔ (p.sectionCfg i).present = false) →
      ((q.sec i).state = .absent ↔ (p.sectionCfg i).present = false)) : q.HaltSound where
  halted stopped i present := by
    rw [evaluator] at stopped
    rw [Part.sectionCfg_of_active active] at present
    exact disturbed stopped i present (sound.halted stopped i present)
  configured :=
    { evaluator := by
        rw [evaluator, active]
        exact sound.configured.evaluator
      cycle := by
        rw [cycle, active]
        exact sound.configured.cycle
      absent := fun i => by
        rw [Part.sectionCfg_of_active active]
        exact absent i (sound.configured.absent i) }

theorem keptByMoves : KeptByMoves Part.HaltSound where
  moved sound moves :=
    sound.of_sections (by rw [moves.tables]) moves.evaluator moves.cycle
      (fun _ i _ => (moves.sections i).disturbed) fun i => (moves.sections i).absent_iff

theorem start (sound : p.HaltSound) (halted : p.evaluator = .halted) :
    (p.setEvaluator .running).HaltSound where
  halted stopped := absurd rfl stopped
  configured :=
    { evaluator := by
        have configured := sound.configured.evaluator
        simp only [halted, reduceCtorEq, false_iff] at configured
        simpa using configured
      cycle := sound.configured.cycle
      absent := sound.configured.absent }

/-- HALT leaves every present section DISTURBED (R91). -/
theorem halt (sound : p.HaltSound) (running : p.evaluator = .running) : p.halted.HaltSound := by
  obtain ⟨-, -, -, -, tables, -, -, evaluator⟩ := p.halted_keeps
  have cfg (i : SectionId) : p.halted.sectionCfg i = p.sectionCfg i :=
    Part.sectionCfg_of_active (by rw [tables]) i
  have configured := sound.configured
  refine ⟨fun _ i present => ?_, ?_, ?_, fun i => ?_⟩
  · rw [cfg] at present
    rw [p.halted_sec, if_pos present]
    simp
  · simpa [evaluator, tables, running] using configured.evaluator
  · rw [tables, p.halted_report]
    exact configured.cycle
  · rw [cfg, p.halted_sec]
    split
    · simp [*]
    · exact configured.absent i

/-- A section that is reset is present, and the evaluator is RUNNING (R111). -/
theorem reset (sound : p.HaltSound) {i : SectionId} {r : SectionRec} (may : p.MayReset i r) :
    (p.setSec i r).HaltSound := by
  refine sound.of_sections rfl rfl Iff.rfl (fun stopped => absurd may.running stopped) fun j absent => ?_
  rw [Part.sec_setSec_eq]
  split
  · rename_i own
    rw [own]
    rcases may.record with rfl | rfl <;> simp [may.present]
  · exact absent

/-- With the first table every section of it is new, and so DISTURBED; with another in HALTED those that an
activation does not disturb were DISTURBED before (R105, R138). -/
theorem activate (sound : p.HaltSound) (crc : Crc) : (p.activate crc).HaltSound := by
  have configured := sound.configured
  have stopped (e : (p.activate crc).evaluator ≠ .running) : p.evaluator ≠ .running := by
    rintro running
    simp [Part.activate_evaluator, running] at e
  have absent (i : SectionId) : (p.activeTable.sectionCfg i).present = false → (p.sec i).state = .absent :=
    (configured.absent i).2
  refine ⟨fun e i present => ?_, ?_, ?_, fun i => ?_⟩
  · rw [Part.activate_sectionCfg] at present
    rw [Part.activate_sec]
    rcases SectionRec.activated_of_present (old := p.activeTable) present (p.sec i) with
      ⟨r, entered⟩ | ⟨kept, before, -⟩
    · simp [entered]
    · rw [kept]
      exact sound.halted (stopped e) i before
  · rw [Part.activate_evaluator, Part.activate_tables]
    split <;> simp_all
  · rw [Part.activate_cycle, Part.activate_tables]
    split
    · simp
    · rename_i tabled
      simpa [configured.cycle, ← configured.evaluator] using tabled
  · rw [Part.activate_sectionCfg, Part.activate_sec]
    cases present : (p.tables.staging.sectionCfg i).present with
    | false => simpa using SectionRec.activated_of_absent present (absent i)
    | true =>
      rcases SectionRec.activated_of_present (old := p.activeTable) present (p.sec i) with
        ⟨r, entered⟩ | ⟨kept, before, -⟩
      · simp [entered]
      · rw [kept, configured.absent i]
        simpa [Part.sectionCfg] using before

theorem keptByRequests : KeptByRequests Part.HaltSound where
  alike sound alike := keptByMoves.alike sound alike
  setTables sound active _ := sound.of_sections active rfl Iff.rfl (fun _ _ _ => id) fun _ => id
  start sound halted := sound.start halted
  halt sound running := sound.halt running
  reset sound may := sound.reset may
  activate sound _ := sound.activate _

/-- After a full reset there is no table, and every section is ABSENT (R83, R93, R163). -/
theorem fullReset (p : Part) : p.fullReset.HaltSound where
  halted _ i present := by
    rw [Part.sectionCfg_of_noTable rfl] at present
    cases present
  configured :=
    { evaluator := ⟨fun _ => rfl, fun _ => rfl⟩
      cycle := ⟨fun _ => rfl, fun _ => rfl⟩
      absent := fun i => by
        rw [Part.sectionCfg_of_noTable rfl, Part.fullReset_sec]
        exact ⟨fun _ => rfl, fun _ => rfl⟩ }

/-- A start-up that loads a table leaves its sections DISTURBED, with the evaluator configured and the report cycle
running (R163). -/
theorem startUpLoad {p : Part} (absent : ∀ i, (p.sec i).state = .absent) (body : ImageBody) :
    (p.startUpLoad body).HaltSound := by
  obtain ⟨evaluator, active, cycle⟩ := p.startUpLoad_configures body
  have cfg (i : SectionId) : (p.startUpLoad body).sectionCfg i = body.table.sectionCfg i := by
    rw [Part.sectionCfg, Part.startUpLoad_activeTable]
  refine ⟨fun _ i present => ?_, ?_, ?_, fun i => ?_⟩
  · rw [cfg] at present
    rw [Part.startUpLoad_sec, if_pos present]
    rfl
  · simp [evaluator, active]
  · simp [cycle, active]
  · rw [cfg, Part.startUpLoad_sec]
    split <;> simp [*]

theorem startUp (p : Part) : p.fullReset.startUp.HaltSound := by
  unfold Part.startUp
  dsimp only
  split
  · refine startUpLoad (fun i => ?_) _
    rw [Part.setImage_sec, Part.fullReset_sec]
    rfl
  · exact (fullReset p).of_sections rfl rfl Iff.rfl (fun _ _ _ => id) fun _ => id

end Part.HaltSound

/-- Settles O53: moves, requests, a full reset and a start-up each keep Law 3 together with the configuration
it rests on; so every event does. -/
theorem stepsKeepHaltedSectionsDisturbed : Obligations.StepsKeepHaltedSectionsDisturbed := by
  intro s t halted configured ran
  have sound := ((Part.HaltSound.keptByMoves.keptUntilStartUp Part.HaltSound.keptByRequests .fullReset).keptByEvents
    fun p _ => .startUp p).step ⟨halted, configured⟩ ran
  exact ⟨sound.halted, sound.configured⟩

end Sys2Proof.Machine
end

section
/-! SUPPORT. Law 1 (R104): the boundary heads of a section that is not DISTURBED are IN_SERVICE. -/

namespace Sys2Proof.Machine

/-! ## What a table that passes its checks says of sections -/

/-- In a table that passes C1 a present section has a count limit of 16 or more (R77). -/
theorem Table.countLimit_of_firstFailure {t : Table} (passes : t.firstFailure = none) {i : SectionId}
    (present : (t.sectionCfg i).present = true) : 16 ≤ (t.sectionCfg i).countLimit.toNat := by
  have c1 : t.checkC1 = none := by
    unfold Table.firstFailure at passes
    simp only [List.findSome?_eq_none_iff, id] at passes
    exact passes _ (by simp)
  unfold Table.checkC1 at c1
  split at c1
  · cases c1
  · split at c1
    · cases c1
    · simp only [firstSection, Option.map_eq_none_iff, List.find?_eq_none] at c1
      have inRange := c1 i (List.mem_finRange i)
      simp only [present, SectionRecord.inRange, inSteps, Bool.true_and, Bool.not_eq_true', Bool.not_eq_false,
        Bool.and_eq_true, decide_eq_true_eq] at inRange
      obtain ⟨⟨-, ⟨lowest, -⟩, -⟩, -⟩ := inRange
      exact lowest

/-- In a table that passes C3 the heads of a present section are present (R78). -/
theorem Table.headPresent_of_firstFailure {t : Table} (passes : t.firstFailure = none) {i : SectionId}
    (present : (t.sectionCfg i).present = true) {h : HeadId} (names : (t.sectionCfg i).names h = true) :
    (t.headCfg h).present = true := by
  have c3 : t.checkC3 = none := by
    unfold Table.firstFailure at passes
    simp only [List.findSome?_eq_none_iff, id] at passes
    exact passes _ (by simp)
  simp only [Table.checkC3, firstSection, Option.map_eq_none_iff, List.find?_eq_none] at c3
  have entries := c3 i (List.mem_finRange i)
  simp only [present, Bool.true_and, Bool.not_eq_true', Bool.not_eq_false, List.all_eq_true] at entries
  obtain ⟨e, listed, head⟩ := List.any_eq_true.1 names
  have named : headOf e.head = some h := (headOf_eq_some_iff _ h).2 (by simpa using head)
  simpa [Table.entryPresent, named] using entries e listed

/-- An activation of the table that is active already clears no head. -/
theorem headCleared_self (t : Table) (h : HeadId) : headCleared t t h = false := by
  simp [headCleared, remapped, removed]

/-- A staging table that fits clears no head that is named by a section whose heads are not remapped. -/
theorem Part.headCleared_of_fits {p : Part} (fits : p.tables.StagingFits) {crc : Crc}
    (checked : p.tables.stagingState = .checked crc) {i : SectionId}
    (present : (p.tables.staging.sectionCfg i).present = true) {h : HeadId}
    (names : (p.tables.staging.sectionCfg i).names h = true)
    (unmapped : remapped p.activeTable p.tables.staging h = false) :
    headCleared p.activeTable p.tables.staging h = false := by
  rcases fits crc checked with passes | ⟨a, active, copy⟩
  · simp [headCleared, removed, unmapped, Table.headPresent_of_firstFailure passes present names]
  · have same : p.activeTable = p.tables.staging := by simp [Part.activeTable, active, copy]
    rw [same]
    exact headCleared_self _ h

/-! ## Boundary heads in service -/

/-- Law 1, with the staging table that an activation installs: one that passes its checks, or a copy of the
active table, whose activation changes nothing. -/
structure Part.ServiceSound (p : Part) : Prop where
  staging    : p.tables.StagingFits
  boundaries : p.BoundariesInService

namespace Part.ServiceSound

variable {p q : Part}

/-- The sections that are not DISTURBED were not, and their heads are still in service. -/
theorem boundaries_of (sound : p.ServiceSound) (active : q.tables.active = p.tables.active)
    (sections : ∀ i, (p.sec i).state = .disturbed → (q.sec i).state = .disturbed)
    (heads : ∀ h, (p.head h).state = .inService → (q.head h).state = .inService ∨
      ∀ i, (p.sectionCfg i).present = true → (p.sectionCfg i).names h = true →
        (q.sec i).state = .disturbed) : q.BoundariesInService := by
  intro i h present moving names
  rw [Part.sectionCfg_of_active active] at present names
  have service := sound.boundaries i h present (fun disturbed => moving (sections i disturbed)) names
  rcases heads h service with still | signalled
  · exact still
  · exact absurd (signalled i present names) moving

theorem keptByMoves : KeptByMoves Part.ServiceSound where
  moved sound moves :=
    { staging := by
        rw [moves.tables]
        exact sound.staging
      boundaries := sound.boundaries_of (by rw [moves.tables]) (fun i => (moves.sections i).disturbed)
        moves.heads }

/-- HALT leaves no present section that is not DISTURBED (R91). -/
theorem halt (sound : p.ServiceSound) : p.halted.ServiceSound := by
  obtain ⟨-, -, -, -, tables, -⟩ := p.halted_keeps
  refine ⟨by rw [tables]; exact sound.staging, fun i h present moving _ => ?_⟩
  rw [Part.sectionCfg_of_active (p := p) (q := p.halted) (by rw [tables])] at present
  rw [p.halted_sec, if_pos present] at moving
  exact absurd (SectionRec.disturbUnlessDisturbed_state _ _) moving

/-- The heads of a section that is reset are IN_SERVICE (R113). -/
theorem reset (sound : p.ServiceSound) {i : SectionId} {r : SectionRec} (may : p.MayReset i r) :
    (p.setSec i r).ServiceSound := by
  refine ⟨sound.staging, fun j h present moving names => ?_⟩
  rw [Part.sec_setSec_eq] at moving
  split at moving
  · rename_i own
    exact may.ready h (own ▸ names)
  · exact sound.boundaries j h present moving names

/-- A section that an activation does not disturb keeps its list, of which no head is remapped or removed (R134,
R135). -/
theorem activate (sound : p.ServiceSound) {crc : Crc} (checked : p.tables.stagingState = .checked crc) :
    (p.activate crc).ServiceSound := by
  refine ⟨fun _ _ => .inr (by simp), fun i h present moving names => ?_⟩
  rw [Part.activate_sectionCfg] at present names
  rw [Part.activate_sec] at moving
  rcases SectionRec.activated_of_present (old := p.activeTable) present (p.sec i) with
    ⟨r, entered⟩ | ⟨kept, before, boundary, -, unmapped⟩
  · simp [entered] at moving
  · have named : (p.sectionCfg i).names h = true := by
      simpa [SectionRecord.names, Part.sectionCfg, boundary] using names
    rw [kept] at moving
    rw [Part.activate_head, Part.headCleared_of_fits sound.staging checked present names (unmapped h names)]
    exact sound.boundaries i h before moving named

theorem keptByRequests : KeptByRequests Part.ServiceSound where
  alike sound alike := keptByMoves.alike sound alike
  setTables sound active fits :=
    { staging := fits
      boundaries := sound.boundaries_of active (fun _ => id) fun _ => .inl }
  start sound _ := ⟨sound.staging, sound.boundaries⟩
  halt sound _ := sound.halt
  reset sound may := sound.reset may
  activate sound checked := sound.activate checked

/-- After a full reset no section is present. -/
theorem fullReset (p : Part) : p.fullReset.ServiceSound where
  staging := nofun
  boundaries i _ present := by
    rw [Part.sectionCfg_of_noTable rfl] at present
    cases present

end Part.ServiceSound

/-- A part that has just started up has every present section DISTURBED (R126). -/
theorem Part.JustStartedUp.startedUp {p : Part} (started : p.JustStartedUp) : p.StartedUp := by
  obtain ⟨q, rfl⟩ := started
  exact (Part.startUp_startedUp rfl).afterEvent

/-- Settles O54: every event but a start-up keeps Law 1 with a staging table that fits, and a start-up, of whose
table the premises say nothing, leaves every present section DISTURBED. -/
theorem stepsKeepBoundariesInService : Obligations.StepsKeepBoundariesInService := by
  intro s t staging boundaries ran
  have kept := Part.ServiceSound.keptByMoves.keptUntilStartUp Part.ServiceSound.keptByRequests .fullReset
  have before : s.toPart.ServiceSound := ⟨fun crc checked => .inl (staging crc checked), boundaries⟩
  rcases kept.step before ran with sound | started
  · exact sound.boundaries
  · intro i h present moving _
    exact absurd (started.startedUp i present).1 moving

end Sys2Proof.Machine
end

section
/-! SUPPORT. Law 2 (R99, R116). A wheel keeps a count within its limit where the limit is 1 or more, as the active
table's checks have it; a table that an activation installs is not known to pass them, but no wheel follows it in
its step, since a telegram of a head comes by another line than a request. -/

namespace Sys2Proof.Machine

/-! ## The count of one section -/

/-- An empty record with no sweep is sound in every state but OCCUPIED. -/
theorem SectionRec.countSound_of_empty {r : SectionRec} (count : r.count = 0) (sweep : r.sweep = false)
    (state : r.state ≠ .occupied) (limit : Nat) : r.countSound limit := by
  unfold SectionRec.countSound
  cases e : r.state with
  | occupied => exact absurd e state
  | absent | clear | clearing | disturbed | restoring => simp [count, sweep]

theorem SectionRec.disturb_countSound (r : SectionRec) (c : Cause) (limit : Nat) :
    (r.disturb c).countSound limit :=
  SectionRec.countSound_of_empty rfl rfl (by simp) limit

theorem SectionRec.disturbUnlessDisturbed_countSound {r : SectionRec} {limit : Nat}
    (sound : r.countSound limit) (c : Cause) : (r.disturbUnlessDisturbed c).countSound limit := by
  unfold SectionRec.disturbUnlessDisturbed
  split
  · exact sound
  · exact r.disturb_countSound c limit

theorem SectionRec.emptied_countSound (cfg : SectionRecord) (r : SectionRec) (limit : Nat) :
    (r.emptied cfg).countSound limit := by
  obtain ⟨state, count, sweep⟩ := r.emptied_ends cfg
  refine SectionRec.countSound_of_empty count sweep ?_ limit
  rcases state with e | e <;> simp [e]

section

variable {cfg : SectionRecord} {r : SectionRec}

/-- An inward wheel counts up to the limit and disturbs above it (R95, R96, R98, R117). -/
theorem SectionRec.inward_countSound (sound : r.countSound cfg.countLimit.toNat)
    (limit : 1 ≤ cfg.countLimit.toNat) : (r.inward cfg).1.countSound cfg.countLimit.toNat := by
  unfold SectionRec.inward
  cases state : r.state with
  | clear | clearing =>
    simp only [SectionRec.countSound, state] at sound
    simp [SectionRec.countSound, limit, sound]
  | occupied =>
    simp only [SectionRec.countSound, state] at sound
    obtain ⟨lowest, highest, sweep⟩ := sound
    dsimp only
    split
    · simp only [SectionRec.countSound]
      exact ⟨by omega, by omega, sweep⟩
    · exact r.disturb_countSound _ _
  | restoring =>
    dsimp only
    split
    · exact ⟨‹_›, by simp⟩
    · exact r.disturb_countSound _ _
  | disturbed | absent => exact sound

/-- An outward wheel counts down, and ends the count at 1 (R95, R97, R98, R118, R119). -/
theorem SectionRec.outward_countSound (sound : r.countSound cfg.countLimit.toNat) :
    (r.outward cfg).1.countSound cfg.countLimit.toNat := by
  unfold SectionRec.outward
  cases state : r.state with
  | clear | clearing => exact r.disturb_countSound _ _
  | occupied =>
    simp only [SectionRec.countSound, state] at sound
    obtain ⟨lowest, highest, sweep⟩ := sound
    dsimp only
    split
    · simp only [SectionRec.countSound]
      exact ⟨by omega, by omega, sweep⟩
    · exact r.emptied_countSound cfg _
  | restoring =>
    simp only [SectionRec.countSound, state] at sound
    obtain ⟨highest, sweeps⟩ := sound
    dsimp only
    split
    · have swept : r.sweep = true := sweeps.2 (by omega)
      simp only [SectionRec.countSound]
      exact ⟨by omega, fun _ => by omega, fun _ => swept⟩
    · split
      · exact r.emptied_countSound cfg _
      · exact ⟨highest, sweeps⟩
  | disturbed | absent => exact sound

theorem SectionRec.Move.countSound {running : Prop} {r' : SectionRec} (move : r.Move cfg running r')
    (limit : 1 ≤ cfg.countLimit.toNat) (sound : r.countSound cfg.countLimit.toNat) :
    r'.countSound cfg.countLimit.toNat := by
  cases move with
  | stay | latch | timer => exact sound
  | wheel inward =>
    unfold SectionRec.wheel
    split
    · exact SectionRec.inward_countSound sound limit
    · exact SectionRec.outward_countSound sound
  | disturb c => exact r.disturb_countSound c _
  | expire clearing =>
    simp only [SectionRec.countSound, clearing] at sound
    obtain ⟨count, sweep⟩ := sound
    exact SectionRec.countSound_of_empty (r := { r with state := .clear, confirm := .stopped }) count sweep
      (by simp) _

/-- A reset section was DISTURBED, and so is empty (R114, R115). -/
theorem SectionRec.ResetTo.countSound {r' : SectionRec} (reset : r.ResetTo r') (state : r.state = .disturbed)
    {limit : Nat} (sound : r.countSound limit) : r'.countSound limit := by
  simp only [SectionRec.countSound, state] at sound
  obtain ⟨count, sweep⟩ := sound
  rcases reset with rfl | rfl
  · exact SectionRec.countSound_of_empty (r := { r with state := .restoring, tally := 0 }) count sweep
      (by simp) limit
  · exact SectionRec.countSound_of_empty (r := { r with state := .clear }) count sweep (by simp) limit

end

/-! ## Requests -/

namespace Part.CountsSound

variable {p q : Part}

/-- The active table stays, and the records keep their counts. -/
theorem of_sections (sound : p.CountsSound) (active : q.tables.active = p.tables.active)
    (sections : ∀ i, (p.sectionCfg i).present = true →
      (p.sec i).countSound (p.sectionCfg i).countLimit.toNat →
      (q.sec i).countSound (p.sectionCfg i).countLimit.toNat) : q.CountsSound := by
  intro i present
  rw [Part.sectionCfg_of_active active] at present ⊢
  exact sections i present (sound i present)

theorem alike (sound : p.CountsSound) (alike : p.Alike q) : q.CountsSound :=
  sound.of_sections (by rw [alike.tables]) fun i _ counted => by
    rw [Part.sec, alike.sections]
    exact counted

theorem halt (sound : p.CountsSound) : p.halted.CountsSound := by
  obtain ⟨-, -, -, -, tables, -⟩ := p.halted_keeps
  refine sound.of_sections (by rw [tables]) fun i present counted => ?_
  rw [p.halted_sec, if_pos present]
  exact SectionRec.disturbUnlessDisturbed_countSound counted _

theorem reset (sound : p.CountsSound) {i : SectionId} {r : SectionRec} (may : p.MayReset i r) :
    (p.setSec i r).CountsSound := by
  refine sound.of_sections rfl fun j _ counted => ?_
  rw [Part.sec_setSec_eq]
  split
  · rename_i own
    subst own
    exact may.record.countSound may.disturbed counted
  · exact counted

/-- A section that an activation does not disturb keeps its limit (R135). -/
theorem activate (sound : p.CountsSound) (crc : Crc) : (p.activate crc).CountsSound := by
  intro i present
  rw [Part.activate_sectionCfg] at present ⊢
  rw [Part.activate_sec]
  rcases SectionRec.activated_of_present (old := p.activeTable) present (p.sec i) with
    ⟨r, entered⟩ | ⟨kept, before, -, limit, -⟩
  · rw [entered]
    exact r.disturb_countSound _ _
  · rw [kept, limit]
    exact sound i before

theorem keptByRequests : KeptByRequests Part.CountsSound where
  alike sound alike := sound.alike alike
  setTables sound active _ := sound.of_sections active fun _ _ => id
  start sound _ := sound
  halt sound _ := sound.halt
  reset sound may := sound.reset may
  activate sound _ := sound.activate _

/-- The end of an event reads latches at most. -/
theorem afterEvent (sound : p.CountsSound) : p.afterEvent.CountsSound :=
  sound.of_sections (by simp) fun i _ counted => by
    obtain ⟨latch, read⟩ := p.afterEvent_sec i
    rw [read]
    exact counted

end Part.CountsSound

/-! ## Wheels -/

/-- Law 2 with the active table's checks. -/
structure Part.WheelsSound (p : Part) : Prop where
  active : p.ActiveSound
  counts : p.CountsSound

namespace Part.WheelsSound

variable {p : Part}

/-- A present section has a limit of 16 or more. -/
theorem limit (sound : p.WheelsSound) {i : SectionId} (present : (p.sectionCfg i).present = true) :
    16 ≤ (p.sectionCfg i).countLimit.toNat := by
  cases installed : p.tables.active with
  | none =>
    rw [Part.sectionCfg_of_noTable installed] at present
    cases present
  | some a =>
    have table : p.activeTable = a.table := by simp [Part.activeTable, installed]
    rw [Part.sectionCfg, table] at present ⊢
    exact Table.countLimit_of_firstFailure (sound.active a installed) present

theorem keptByMoves : KeptByMoves Part.WheelsSound where
  moved sound moves :=
    { active := by
        unfold Part.ActiveSound
        rw [moves.tables]
        exact sound.active
      counts := sound.counts.of_sections (by rw [moves.tables]) fun i present =>
        (moves.sections i).countSound (le_trans (by simp) (sound.limit present)) }

theorem fullReset (p : Part) : p.fullReset.WheelsSound where
  active := nofun
  counts i present := by
    rw [Part.sectionCfg_of_noTable rfl] at present
    cases present

end Part.WheelsSound

/-! ## A step by its line

No command takes both a telegram of a head and a request: a property that moves keep is followed through the
commands off the count line, and a weaker one that requests keep through those of the count line. -/

namespace KeptByRequests

variable {P : Part → Prop} {p : Part}

theorem setCount (kept : KeptByRequests P) (c : CountLine) (holds : P p) : P (p.setCount c) :=
  kept.alike holds (.of_blocks rfl rfl rfl rfl rfl)

theorem takeRequest (kept : KeptByRequests P) (kind : Octet) (body : List Octet) (holds : P p) :
    P (p.takeRequest kind body (ownerOf kind)) := by
  unfold Part.takeRequest
  split
  · exact kept.setCount _ holds
  · split
    · exact kept.setCount _ (kept.request _ (ownerOf_mem kind) body p holds)
    · exact kept.setCount _ holds

theorem judgeCountTelegram (kept : KeptByRequests P) (address kind : Octet) (body : List Octet)
    (holds : P p) : P (p.judgeCountTelegram address kind body) := by
  unfold Part.judgeCountTelegram
  split
  · exact kept.takeRequest kind body holds
  · exact holds

theorem countTelegramArrives (kept : KeptByRequests P) (body : List Octet) {f : Part → Part}
    (judged : ∀ {q}, P q → P (f q)) (holds : P p) : P (p.countTelegramArrives body f) := by
  unfold Part.countTelegramArrives
  split
  · exact judged (kept.setCount _ holds)
  · exact kept.setCount _ holds

theorem countOctet (kept : KeptByRequests P) (o : Octet) (holds : P p) : P (p.countOctet o) := by
  unfold Part.countOctet
  split
  · split <;> exact kept.setCount _ holds
  · split
    · exact kept.setCount _ holds
    · exact holds
  · dsimp only
    split
    · exact kept.setCount _ holds
    · exact kept.setCount _ holds
    · exact kept.setCount _ holds
    · exact kept.judgeCountTelegram _ _ _ (kept.setCount _ holds)

theorem countCharTimeout (kept : KeptByRequests P) (holds : P p) : P p.countCharTimeout := by
  unfold Part.countCharTimeout
  split
  · exact kept.setCount _ holds
  · exact holds
  · exact holds

end KeptByRequests

/-- `P` is kept by the events off the count line and `Q`, which `P` implies, by those of the count line. -/
structure KeptByLines (P Q : Part → Prop) : Prop where
  moves : KeptByMoves P
  fullReset (p : Part) : P p.fullReset
  requests : KeptByRequests Q
  afterEvent {p : Part} : Q p → Q p.afterEvent
  weaken {p : Part} : P p → Q p

namespace KeptByLines

variable {P Q : Part → Prop} {s t : State} {p : Part}

theorem next (kept : KeptByLines P Q) (holds : P p) (ran : s.next p = .next t) : Q t.toPart := by
  cases ran
  exact kept.weaken (kept.moves.afterEvent holds)

/-- A part that leaves its reset starts up; one that another cause still holds is as it was. -/
theorem next_leaveReset (kept : KeptByLines P Q) (holds : P p) (ran : s.next p.leaveReset = .next t) :
    Q t.toPart ∨ t.toPart.JustStartedUp := by
  unfold Part.leaveReset at ran
  split at ran
  · exact .inl (kept.next holds ran)
  · cases ran
    exact .inr ⟨p, rfl⟩

/-- An event off the count line. -/
theorem next_off (kept : KeptByLines P Q) (holds : P s.toPart) {f : Part → Part}
    (keeps : ∀ {q}, P q → P (f q)) (ran : s.next (s.toPart.unlessReset f) = .next t) :
    Q t.toPart ∨ t.toPart.JustStartedUp :=
  .inl (kept.next (KeptByEvents.unlessReset keeps holds) ran)

/-- An event of the count line. -/
theorem next_on (kept : KeptByLines P Q) (holds : P s.toPart) {f : Part → Part}
    (keeps : ∀ {q}, Q q → Q (f q)) (ran : s.next (s.toPart.unlessReset f) = .next t) :
    Q t.toPart ∨ t.toPart.JustStartedUp := by
  cases ran
  exact .inl (kept.afterEvent (KeptByEvents.unlessReset keeps (kept.weaken holds)))

/-- Octets of a head link. -/
theorem linkOctets (kept : KeptByLines P Q) (l : LinkId) (octets : List Octet) (holds : P p) :
    P (p.lineOctets (.headLink l) octets) :=
  Part.lineOctets_inv P _ (fun _ o => kept.moves.link.linkOctet l o) (fun _ => kept.moves.afterEvent) octets holds

/-- Octets of the count line. -/
theorem countOctets (kept : KeptByLines P Q) (octets : List Octet) (holds : Q p) :
    Q (p.lineOctets .countLine octets) :=
  Part.lineOctets_inv Q _ (fun _ o => kept.requests.countOctet o) (fun _ => kept.afterEvent) octets holds

theorem linkCharWait (kept : KeptByLines P Q) (l : LinkId) (holds : P p) : P (p.linkCharWait l) := by
  unfold Part.linkCharWait
  split
  · exact holds
  · exact kept.moves.link.linkCharTimeout l holds

theorem rateChange (kept : KeptByLines P Q) (holds : P p) : P p.rateChange := by
  have links := foldl_inv P (fun q l => q.linkCharTimeout l) (fun _ l => kept.moves.link.linkCharTimeout l)
    (List.finRange 4) p holds
  unfold Part.rateChange Part.countCharTimeout
  split
  · exact kept.moves.setCount _ links
  · exact links
  · exact links

theorem onItsOwn (kept : KeptByLines P Q) (holds : P p) : P p.onItsOwn := by
  unfold Part.onItsOwn
  split
  · exact kept.moves.relayStart _ holds
  · rw [Part.tick_eq_foldl]
    refine foldl_inv P _ (fun q t holds => ?_) _ _ (kept.moves.moved holds (.countDown p))
    unfold Part.takeExpiry Part.takeDue
    split
    · exact kept.moves.afterEvent (kept.moves.expire t holds)
    · exact holds

/-- Every command leads from `P` to `Q`, or starts the part up. -/
theorem exec (kept : KeptByLines P Q) (i : Instr) (holds : P s.toPart) (ran : exec i s = .next t) :
    Q t.toPart ∨ t.toPart.JustStartedUp := by
  have moves := kept.moves
  have pinned (pins : Pins) : P (s.setPins pins) := moves.setPins pins holds
  have request (kind : Octet) (body : List Octet)
      (ran : s.next (s.toPart.unlessReset fun p => p.requestArrives kind body (ownerOf kind)) = .next t) :
      Q t.toPart ∨ t.toPart.JustStartedUp :=
    kept.next_on holds (kept.requests.countTelegramArrives body (kept.requests.takeRequest kind body)) ran
  cases i with
  | fullReset cause => exact .inl (kept.next (kept.fullReset _) ran)
  | addressStrapChange address =>
    simp only [Machine.exec, execAddressStrapChange, Part.changeAddress] at ran
    split at ran
    · exact .inl (kept.next (kept.fullReset _) ran)
    · split at ran
      · exact kept.next_leaveReset (pinned _) ran
      · exact .inl (kept.next (pinned _) ran)
  | fullResetEnd event =>
    simp only [Machine.exec, execFullResetEnd] at ran
    split at ran
    · exact kept.next_leaveReset (pinned _) ran
    · exact .inl (kept.next holds ran)
  | rateStrapChange rate =>
    refine .inl (kept.next ?_ ran)
    split
    · exact holds
    · exact KeptByEvents.unlessReset kept.rateChange (pinned _)
  | syncMiss line octet =>
    cases line with
    | headLink l => exact kept.next_off holds (moves.link.linkOctet l octet) ran
    | countLine => exact kept.next_on holds (kept.requests.countOctet octet) ran
  | lengthBadFrame line octets | crcBadFrame line octets =>
    cases line with
    | headLink l => exact kept.next_off holds (kept.linkOctets l octets) ran
    | countLine => exact kept.next_on holds (kept.countOctets octets) ran
  | charTimeout line octets =>
    cases line with
    | headLink l => exact kept.next_off holds (fun q => kept.linkCharWait l (kept.linkOctets l octets q)) ran
    | countLine =>
      exact kept.next_on holds (fun q => kept.requests.countCharTimeout (kept.countOctets octets q)) ran
  | quietInterval line =>
    cases line with
    | headLink l => exact kept.next_off holds (moves.link.linkQuiet l) ran
    | countLine =>
      exact kept.next_on holds (fun q => kept.requests.setCount _ (kept.requests.countCharTimeout q)) ran
  | headStatusTelegram l octets => exact kept.next_off holds (kept.linkOctets l octets) ran
  | silenceExpiry h => exact kept.next_off holds (moves.expire (.silence h)) ran
  | confirmExpiry i => exact kept.next_off holds (moves.expire (.confirm i)) ran
  | relayTimerExpiry l => exact kept.next_off holds (moves.expire (.relay l)) ran
  | holdLimitExpiry => exact kept.next_off holds (moves.expire .holdLimit) ran
  | reportCycleExpiry => exact kept.next_off holds (moves.expire .reportCycle) ran
  | storeTimerExpiry => exact kept.next_off holds (moves.expire .store) ran
  | relayTransmissionStart l => exact kept.next_off holds (moves.relayStart l) ran
  | relayTransmissionEnd l => exact kept.next_off holds (moves.relayEnd l) ran
  | writeCompletion readBack =>
    exact kept.next_off holds (fun q => moves.alike q (.writeCompletion _ readBack)) ran
  | transmissionStart => exact .inl (kept.next holds ran)
  | transmissionEnd => exact kept.next_off holds (fun q => moves.alike q (.endTransmission _)) ran
  | telegramAddressedElsewhere address kind body =>
    exact kept.next_on holds
      (kept.requests.countTelegramArrives body (kept.requests.judgeCountTelegram address kind body)) ran
  | requestOfUnknownKind kind body => exact request kind body ran
  | statusQuery body | sectionQuery body | start body | halt body | sectionReset body | headQuery body
  | headRelease body | headAdopt body | linkQuery body | headRelay body | tableWrite body
  | tableRead body | tableCopy body | tableCheck body | tableActivate body | store body
  | commission body | eraseStore body | hold body | proceed body => exact request _ body ran

/-- Every step leads from `P` to `Q`, or starts the part up. -/
theorem step (kept : KeptByLines P Q) (holds : P s.toPart) (ran : step s = .next t) :
    Q t.toPart ∨ t.toPart.JustStartedUp := by
  unfold Machine.step at ran
  cases waiting : s.pending with
  | nil =>
    rw [waiting] at ran
    exact kept.next_off holds kept.onItsOwn ran
  | cons c rest =>
    rw [waiting] at ran
    exact kept.exec (s := { s with pending := rest }) c holds ran

end KeptByLines

/-! ## Every step -/

/-- A section that a start-up has put into DISTURBED is empty, and so is one that it has left ABSENT (R93, R102). -/
theorem Part.startUp_countsSound (p : Part) : p.fullReset.startUp.CountsSound := by
  intro i _
  have reset (limit : Nat) : SectionRec.reset.countSound limit :=
    SectionRec.countSound_of_empty rfl rfl (by simp [SectionRec.reset]) limit
  unfold Part.startUp
  dsimp only
  split
  · rw [Part.startUpLoad_sec, Part.setImage_sec, Part.fullReset_sec]
    split
    · exact SectionRec.disturb_countSound _ _ _
    · exact reset _
  · rw [Part.setImage_sec, Part.fullReset_sec]
    exact reset _

theorem Part.JustStartedUp.countsSound {p : Part} (started : p.JustStartedUp) : p.CountsSound := by
  obtain ⟨q, rfl⟩ := started
  exact (Part.startUp_countsSound q).afterEvent

/-- Settles O55: off the count line the wheels keep Law 2 by the active table's limits; on it requests keep Law 2
whatever table they install; and a start-up leaves every section empty. -/
theorem stepsKeepCountsSound : Obligations.StepsKeepCountsSound := by
  intro s t active counts ran
  have kept : KeptByLines Part.WheelsSound Part.CountsSound :=
    { moves := Part.WheelsSound.keptByMoves
      fullReset := Part.WheelsSound.fullReset
      requests := Part.CountsSound.keptByRequests
      afterEvent := fun counts => counts.afterEvent
      weaken := fun sound => sound.counts }
  rcases kept.step ⟨active, counts⟩ ran with sound | started
  · exact sound
  · exact started.countsSound

end Sys2Proof.Machine
end

section
/-! SUPPORT. What a wheel and a confirm expiry do to one section (R95 to R101), and the queries, START and HALT
(R47, R90, R91, R110). -/

namespace Sys2Proof.Machine

/-! ## A wheel at one section (R94, R109) -/

theorem Part.setSec_sec (p : Part) (i : SectionId) : p.setSec i (p.sec i) = p := by
  simp [Part.setSec, Part.sec]

section

variable {p : Part} {i : SectionId} {inward : Bool}

/-- A section that a wheel changes is marked. -/
theorem Part.applyWheel_marked {r : SectionRec}
    (moved : (p.sec i).wheel (p.sectionCfg i) inward = (r, true)) :
    p.applyWheel i inward = (p.setSec i r).mark i := by
  simp [Part.applyWheel, moved]

/-- A wheel that disturbs the section. -/
theorem Part.applyWheel_disturbs {c : Cause}
    (moved : (p.sec i).wheel (p.sectionCfg i) inward = ((p.sec i).disturb c, true)) :
    p.applyWheel i inward = p.disturb i c :=
  Part.applyWheel_marked moved

theorem Part.applyWheel_of_disturbed (state : (p.sec i).state = .disturbed) (inward : Bool) :
    p.applyWheel i inward = p := by
  simp [Part.applyWheel, SectionRec.wheel_of_idle (.inl state), Part.setSec_sec]

end

section

variable {cfg : SectionRecord} {r : SectionRec}

theorem SectionRec.wheel_inward_clear (state : r.state = .clear) :
    r.wheel cfg true = ({ r with state := .occupied, count := 1, latch := true }, true) := by
  simp [SectionRec.wheel, SectionRec.inward, state]

theorem SectionRec.wheel_inward_occupied (state : r.state = .occupied)
    (room : r.count < cfg.countLimit.toNat) : r.wheel cfg true = ({ r with count := r.count + 1 }, true) := by
  simp [SectionRec.wheel, SectionRec.inward, state, room]

theorem SectionRec.wheel_inward_full (state : r.state = .occupied) (full : r.count = cfg.countLimit.toNat) :
    r.wheel cfg true = (r.disturb .overflow, true) := by
  simp [SectionRec.wheel, SectionRec.inward, state, full]

theorem SectionRec.wheel_inward_clearing (state : r.state = .clearing) :
    r.wheel cfg true = ({ r with state := .occupied, count := 1, confirm := .stopped }, true) := by
  simp [SectionRec.wheel, SectionRec.inward, state]

theorem SectionRec.wheel_outward_underflow (state : r.state = .clear ∨ r.state = .clearing) :
    r.wheel cfg false = (r.disturb .underflow, true) := by
  rcases state with state | state <;> simp [SectionRec.wheel, SectionRec.outward, state]

theorem SectionRec.wheel_outward_occupied (state : r.state = .occupied) (more : 1 < r.count) :
    r.wheel cfg false = ({ r with count := r.count - 1 }, true) := by
  simp [SectionRec.wheel, SectionRec.outward, state, more]

theorem SectionRec.wheel_outward_last (state : r.state = .occupied) (last : r.count = 1) :
    r.wheel cfg false = (r.emptied cfg, true) := by
  simp [SectionRec.wheel, SectionRec.outward, state, last]

/-- With a confirm time the last wheel starts the confirm timer (R97, R100). -/
theorem SectionRec.emptied_confirming (confirms : 0 < cfg.confirmTime.toNat) (sweep : r.sweep = false) :
    r.emptied cfg =
      { r with state := .clearing, count := 0, confirm := .running cfg.confirmTime.toNat } := by
  simp [SectionRec.emptied, confirms, sweep]

theorem SectionRec.emptied_at_once (atOnce : cfg.confirmTime = 0) (sweep : r.sweep = false) :
    r.emptied cfg = { r with state := .clear, count := 0 } := by
  simp [SectionRec.emptied, atOnce, sweep]

end

/-- Settles O23: each wheel by the state of the section, its count and its limit. -/
theorem wheelsMoveSections : Obligations.WheelsMoveSections := by
  intro p i disturbed enters
  have disturbs {inward : Bool} {c : Cause}
      (moved : (p.sec i).wheel (p.sectionCfg i) inward = ((p.sec i).disturb c, true)) :
      p.applyWheel i inward = disturbed c :=
    (Part.applyWheel_disturbs moved).trans (enters c).symm
  refine ⟨fun clear => ⟨?_, ?_⟩, fun occupied => ⟨fun room => ?_, fun full => ?_, fun more => ?_,
    fun last sweep => ⟨fun confirms => ?_, fun atOnce => ?_⟩⟩, fun clearing => ⟨?_, ?_⟩,
    fun state => ?_⟩
  · exact Part.applyWheel_marked (SectionRec.wheel_inward_clear clear)
  · exact disturbs (SectionRec.wheel_outward_underflow (.inl clear))
  · exact Part.applyWheel_marked (SectionRec.wheel_inward_occupied occupied room)
  · exact disturbs (SectionRec.wheel_inward_full occupied full)
  · exact Part.applyWheel_marked (SectionRec.wheel_outward_occupied occupied more)
  · rw [Part.applyWheel_marked (SectionRec.wheel_outward_last occupied last),
      SectionRec.emptied_confirming confirms sweep]
  · rw [Part.applyWheel_marked (SectionRec.wheel_outward_last occupied last),
      SectionRec.emptied_at_once atOnce sweep]
  · exact Part.applyWheel_marked (SectionRec.wheel_inward_clearing clearing)
  · exact disturbs (SectionRec.wheel_outward_underflow (.inr clearing))
  · simp [Part.applyWheel_of_disturbed state]

/-! ## CONFIRM_EXPIRY (R101) -/

theorem exec_confirmExpiry {s : State} (awake : s.awake) (i : SectionId) :
    exec (.confirmExpiry i) s = .next (State.afterEvent { s with toPart := s.confirmExpiry i }) := by
  have ran := exec_expiryCommand (.confirm i) s
  rwa [Part.unlessReset_awake awake, State.next_eq] at ran

theorem Part.confirmExpiry_of_clearing {p : Part} {i : SectionId} (runs : (p.sec i).confirm ≠ .stopped)
    (state : (p.sec i).state = .clearing) :
    p.confirmExpiry i = (p.setSec i { p.sec i with state := .clear, confirm := .stopped }).mark i := by
  unfold Part.confirmExpiry
  dsimp only
  split
  · contradiction
  · simp [state]

/-- Settles O25: no expiry of a stopped timer, and the end of the CLEARING. -/
theorem confirmExpires : Obligations.ConfirmExpires := by
  intro s i awake
  rw [exec_confirmExpiry awake]
  refine ⟨fun stopped => ?_, fun runs state => ?_⟩
  · rw [show s.confirmExpiry i = s.toPart from Part.expire_of_stopped (t := .confirm i) stopped]
  · rw [Part.confirmExpiry_of_clearing runs state]
    rfl

/-! ## SECTION QUERY and HEAD QUERY (R110, R47) -/

theorem sectionOf_eq_some_iff (o : Octet) (i : SectionId) : sectionOf o = some i ↔ o.toNat = i.val := by
  unfold sectionOf
  split
  · simp [Fin.ext_iff]
  · have := i.isLt
    simp
    omega

theorem sectionOf_eq_none {o : Octet} (above : 24 ≤ o.toNat) : sectionOf o = none :=
  dif_neg (Nat.not_lt.2 above)

/-- An octet that codes a number below 256 reads back as the number. -/
theorem toNat_octet_of_fin {n : Nat} (small : n ≤ 256) (x : Fin n) :
    (BitVec.ofNat 8 x.val).toNat = x.val := by
  have := x.isLt
  simp
  omega

theorem sectionQueryRequest_outOfRange {body : List Octet} (named : sectionOf (field body 1) = none)
    (p : Part) : sectionQueryRequest body p = (p, refuse .range) := by
  simp [sectionQueryRequest, named]

theorem headQueryRequest_outOfRange {body : List Octet} (named : headOf (field body 1) = none) (p : Part) :
    headQueryRequest body p = (p, refuse .range) := by
  simp [headQueryRequest, named]

/-- The items of SECTION QUERY (R110, R166). -/
def Part.sectionItems (p : Part) (i : SectionId) : List Octet :=
  [codeEvaluator p.evaluator, codeFlag (p.sectionCfg i).present, codeSectionState (p.sec i).state] ++
    twoOctets (p.sec i).count ++ [(p.sec i).number] ++ codeCause (p.sec i).cause ++
    [codeFlag (p.sec i).sweep, octetOf (p.sec i).tally, codeFlag (p.sec i).latch] ++
    timerItem (p.sec i).confirm

theorem sectionQueryRequest_named {body : List Octet} {i : SectionId}
    (named : sectionOf (field body 1) = some i) (p : Part) :
    sectionQueryRequest body p = (p, done (p.sectionItems i)) := by
  simp [sectionQueryRequest, named, Part.sectionItems]

/-- The items of HEAD QUERY (R47, R166). -/
def Part.headItems (p : Part) (h : HeadId) : List Octet :=
  (if (p.headCfg h).present then [1, (p.headCfg h).link, (p.headCfg h).station] else [0, 0, 0]) ++
    [codeHeadState (p.head h).state, codeHeadCause (p.head h).lastCause, octetOf (p.head h).run,
      codeFlag (p.head h).identityConfirmed] ++
    optional 2 ((p.head h).baseline.map fun b => [b.sequence.setWidth 8, b.changeCount]) ++
    optional 5 ((p.head h).health.map healthItem) ++ optional 3 ((p.head h).learned.map octets24) ++
    [codePhase (p.decoder h).phase, codeSide (p.decoder h).side, octetOf (p.decoder h).rock] ++
    octets16 (p.decoder h).tallyAB ++ octets16 (p.decoder h).tallyBA

theorem headQueryRequest_named {body : List Octet} {h : HeadId} (named : headOf (field body 1) = some h)
    (p : Part) : headQueryRequest body p = (p, done (p.headItems h)) := by
  simp [headQueryRequest, named, Part.headItems]

/-- Settles O33: each query by the number that it names, answered over the part as it stands. -/
theorem queriesThatChangeNothing : Obligations.QueriesThatChangeNothing := by
  intro s tag room
  have sectionQuery {number : Octet} {a : Answer}
      (answers : sectionQueryRequest [tag, number] (s.toPart.setCountRx .wait) =
        (s.toPart.setCountRx .wait, a)) :
      exec (.sectionQuery [tag, number]) s =
        s.answeredAfter (s.toPart.setCountRx .wait) tag 0x11 a.outcome a.items :=
    State.next_requestArrives room (by simp) rfl answers rfl
  have headQuery {number : Octet} {a : Answer}
      (answers : headQueryRequest [tag, number] (s.toPart.setCountRx .wait) =
        (s.toPart.setCountRx .wait, a)) :
      exec (.headQuery [tag, number]) s =
        s.answeredAfter (s.toPart.setCountRx .wait) tag 0x15 a.outcome a.items :=
    State.next_requestArrives room (by simp) rfl answers rfl
  refine ⟨fun i => ?_, fun number above => ?_, fun h => ?_, fun number above => ?_⟩
  · have named : sectionOf (field [tag, BitVec.ofNat 8 i.val] 1) = some i :=
      (sectionOf_eq_some_iff _ i).2 (toNat_octet_of_fin (by simp) i)
    exact sectionQuery (sectionQueryRequest_named named _)
  · have named : sectionOf (field [tag, number] 1) = none := sectionOf_eq_none above
    exact sectionQuery (sectionQueryRequest_outOfRange named _)
  · have named : headOf (field [tag, BitVec.ofNat 8 h.val] 1) = some h :=
      (headOf_eq_some_iff _ h).2 (toNat_octet_of_fin (by simp) h)
    exact headQuery (headQueryRequest_named named _)
  · have named : headOf (field [tag, number] 1) = none := headOf_eq_none above
    exact headQuery (headQueryRequest_outOfRange named _)

/-! ## START and HALT (R90, R91) -/

theorem startRequest_halted {p : Part} (halted : p.evaluator = .halted) (body : List Octet) :
    startRequest body p = (p.setEvaluator .running, done []) := by
  simp [startRequest, halted]

theorem startRequest_elsewhere {p : Part} (elsewhere : p.evaluator ≠ .halted) (body : List Octet) :
    startRequest body p = (p, refuse .state) := by
  simp [startRequest, elsewhere]

/-- HALT sets the evaluator, disturbs sections and marks them, and does nothing else. -/
theorem Part.halted_eq (p : Part) :
    p.halted = { p with
      evaluator := .halted
      sections := p.halted.sections
      report := { p.report with
        queue := p.report.queue ++ (List.finRange 24).filter fun i =>
          (p.sectionCfg i).present && decide ((p.sec i).state ≠ .disturbed) &&
            decide (i ∉ p.report.queue) } } := by
  have kept := p.halted_keeps
  rw [← p.halted_report]
  generalize p.halted = q at kept
  cases p
  cases q
  simp_all

/-- Settles O34: START and HALT by the state of the evaluator, and what HALT makes of each section. -/
theorem startAndHalt : Obligations.StartAndHalt := by
  intro s tag room
  have start {p : Part} {a : Answer}
      (answers : startRequest [tag] (s.toPart.setCountRx .wait) = (p, a))
      (count : p.count = (s.toPart.setCountRx .wait).count) :
      exec (.start [tag]) s = s.answeredAfter p tag 0x12 a.outcome a.items :=
    State.next_requestArrives room (by simp) rfl answers count
  have halt {p : Part} {a : Answer}
      (answers : haltRequest [tag] (s.toPart.setCountRx .wait) = (p, a))
      (count : p.count = (s.toPart.setCountRx .wait).count) :
      exec (.halt [tag]) s = s.answeredAfter p tag 0x13 a.outcome a.items :=
    State.next_requestArrives room (by simp) rfl answers count
  refine ⟨fun halted => ?_, fun elsewhere => ?_, fun elsewhere => ?_, fun running => ?_⟩
  · exact start (startRequest_halted (p := s.toPart.setCountRx .wait) halted _) rfl
  · exact start (startRequest_elsewhere (p := s.toPart.setCountRx .wait) elsewhere _) rfl
  · exact halt (haltRequest_elsewhere (p := s.toPart.setCountRx .wait) elsewhere _) rfl
  · obtain ⟨-, -, -, -, -, count, -⟩ := (s.toPart.setCountRx .wait).halted_keeps
    have ran : exec (.halt [tag]) s =
        s.answeredAfter (s.toPart.setCountRx .wait).halted tag 0x13 .done [] :=
      halt (haltRequest_running (p := s.toPart.setCountRx .wait) running _) count
    refine ⟨_, ran, fun i => ?_, ?_⟩
    · have record : (s.toPart.setCountRx .wait).halted.sec i =
          if (s.sectionCfg i).present then (s.sec i).disturbUnlessDisturbed .halt else s.sec i :=
        (s.toPart.setCountRx .wait).halted_sec i
      rw [SectionRec.disturbUnlessDisturbed] at record
      refine record.trans ?_
      by_cases present : (s.sectionCfg i).present = true
      · by_cases disturbed : (s.sec i).state = .disturbed
        · simp [disturbed]
        · simp [disturbed, present, SectionRec.disturb]
      · simp [present]
    · rw [Part.halted_eq]
      rfl

end Sys2Proof.Machine
end

section
/-! SUPPORT. What a wheel does to a section in RESTORING (R117 to R120), and the checks of SECTION RESET with its
two modes (R111 to R115). -/

namespace Sys2Proof.Machine

/-! ## A wheel at a section in RESTORING (R117 to R120) -/

section

variable {cfg : SectionRecord} {r : SectionRec}

/-- Only an entry into DISTURBED from CLEAR sets the latch (R102). -/
theorem SectionRec.disturb_of_not_clear (state : r.state ≠ .clear) (c : Cause) :
    r.disturb c = { r with
      state := .disturbed, count := 0, confirm := .stopped, sweep := false, cause := c
      number := r.number + 1 } := by
  simp [SectionRec.disturb, state]

theorem SectionRec.wheel_inward_restoring (state : r.state = .restoring)
    (room : r.count < cfg.countLimit.toNat) :
    r.wheel cfg true = ({ r with count := r.count + 1, sweep := true }, true) := by
  simp [SectionRec.wheel, SectionRec.inward, state, room]

theorem SectionRec.wheel_inward_restoring_full (state : r.state = .restoring)
    (full : r.count = cfg.countLimit.toNat) : r.wheel cfg true = (r.disturb .overflow, true) := by
  simp [SectionRec.wheel, SectionRec.inward, state, full]

theorem SectionRec.wheel_outward_restoring (state : r.state = .restoring) (more : 1 < r.count) :
    r.wheel cfg false = ({ r with count := r.count - 1 }, true) := by
  simp [SectionRec.wheel, SectionRec.outward, state, more]

theorem SectionRec.wheel_outward_restoring_last (state : r.state = .restoring) (last : r.count = 1) :
    r.wheel cfg false = (r.emptied cfg, true) := by
  simp [SectionRec.wheel, SectionRec.outward, state, last]

/-- A wheel that leaves without having entered is tallied, and the section is not marked (R119). -/
theorem SectionRec.wheel_outward_restoring_unentered (state : r.state = .restoring) (unentered : r.count = 0) :
    r.wheel cfg false = ({ r with tally := min (r.tally + 1) 255 }, false) := by
  simp [SectionRec.wheel, SectionRec.outward, state, unentered, raise8, raiseTo]

/-- The sweep ends in CLEARING where the section has a confirm time (R120). -/
theorem SectionRec.emptied_of_confirmTime (confirms : 0 < cfg.confirmTime.toNat) :
    r.emptied cfg = { r with
      state := .clearing, count := 0, sweep := false, confirm := .running cfg.confirmTime.toNat } :=
  if_pos confirms

/-- The sweep ends in CLEAR where the section has none (R120). -/
theorem SectionRec.emptied_of_no_confirmTime (atOnce : cfg.confirmTime = 0) :
    r.emptied cfg = { r with state := .clear, count := 0, sweep := false } := by
  simp [SectionRec.emptied, atOnce]

end

/-- A section that a wheel changes without a mark. -/
theorem Part.applyWheel_unmarked {p : Part} {i : SectionId} {inward : Bool} {r : SectionRec}
    (moved : (p.sec i).wheel (p.sectionCfg i) inward = (r, false)) : p.applyWheel i inward = p.setSec i r := by
  simp [Part.applyWheel, moved]

/-- Settles O24: an inward wheel by the count and its limit, an outward one by the count. -/
theorem wheelsMoveARestoringSection : Obligations.WheelsMoveARestoringSection := by
  intro p i restoring
  refine ⟨fun room => ?_, fun full => ?_, fun more => ?_,
    fun last => ⟨fun confirms => ?_, fun atOnce => ?_⟩, fun unentered => ?_⟩
  · exact Part.applyWheel_marked (SectionRec.wheel_inward_restoring restoring room)
  · have notClear : (p.sec i).state ≠ .clear := by simp [restoring]
    rw [Part.applyWheel_marked (SectionRec.wheel_inward_restoring_full restoring full),
      SectionRec.disturb_of_not_clear notClear]
  · exact Part.applyWheel_marked (SectionRec.wheel_outward_restoring restoring more)
  · rw [Part.applyWheel_marked (SectionRec.wheel_outward_restoring_last restoring last),
      SectionRec.emptied_of_confirmTime confirms]
  · rw [Part.applyWheel_marked (SectionRec.wheel_outward_restoring_last restoring last),
      SectionRec.emptied_of_no_confirmTime atOnce]
  · exact Part.applyWheel_unmarked (SectionRec.wheel_outward_restoring_unentered restoring unentered)

/-! ## The heads of the section (R113) -/

/-- The head that HEADS NOT READY names is the lowest-numbered of the section that is not IN_SERVICE. -/
theorem Part.headNotReady_eq_some {p : Part} {cfg : SectionRecord} {h : HeadId} (names : cfg.names h = true)
    (out : (p.head h).state ≠ .inService)
    (lowest : ∀ g, g < h → cfg.names g = true → (p.head g).state = .inService) :
    p.headNotReady cfg = some h := by
  rw [Part.headNotReady, ← Fin.find?_eq_find?_finRange, Fin.find?_eq_some_iff]
  refine ⟨by simp [names, out], fun g below => ?_⟩
  simpa using lowest g below

theorem Part.headNotReady_eq_none {p : Part} {cfg : SectionRecord}
    (ready : ∀ h, cfg.names h = true → (p.head h).state = .inService) : p.headNotReady cfg = none := by
  simpa [Part.headNotReady] using ready

/-! ## SECTION RESET (R111 to R115) -/

theorem requestForm_sectionReset {tag number mode quoted : Octet} (modes : mode = 1 ∨ mode = 2) :
    requestForm kindSectionReset [tag, number, mode, quoted] = true := by
  rcases modes with rfl | rfl <;> rfl

section

variable {p : Part} {i : SectionId} {tag number mode quoted : Octet}

theorem sectionResetRequest_notRunning (elsewhere : p.evaluator ≠ .running) (body : List Octet) :
    sectionResetRequest body p = (p, refuse .state) :=
  if_pos elsewhere

theorem sectionResetRequest_outOfRange (running : p.evaluator = .running) (named : sectionOf number = none) :
    sectionResetRequest [tag, number, mode, quoted] p = (p, refuse .range) := by
  simp [sectionResetRequest, field, running, named]

theorem sectionResetRequest_notPresent (running : p.evaluator = .running) (named : sectionOf number = some i)
    (absent : (p.sectionCfg i).present = false) :
    sectionResetRequest [tag, number, mode, quoted] p = (p, refuse .range) := by
  simp [sectionResetRequest, field, running, named, absent]

/-- SECTION RESET passes its first two checks for a section: the evaluator is in RUNNING, and the section named
is present (R111). -/
structure Part.ResetNames (p : Part) (number : Octet) (i : SectionId) : Prop where
  running : p.evaluator = .running
  named   : sectionOf number = some i
  present : (p.sectionCfg i).present = true

theorem sectionResetRequest_notDisturbed (names : p.ResetNames number i) (state : (p.sec i).state ≠ .disturbed) :
    sectionResetRequest [tag, number, mode, quoted] p = (p, refuse .state) := by
  simp [sectionResetRequest, field, names.running, names.named, names.present, state]

theorem sectionResetRequest_stale (names : p.ResetNames number i) (state : (p.sec i).state = .disturbed)
    (stale : quoted ≠ (p.sec i).number) :
    sectionResetRequest [tag, number, mode, quoted] p =
      (p, { outcome := .refused .stale, items := [(p.sec i).number] }) := by
  simp [sectionResetRequest, field, names.running, names.named, names.present, state, stale]

/-- SECTION RESET passes its first four checks: the section that it names is DISTURBED too, and the disturbance
number that it quotes is the section's own (R111, R112). -/
structure Part.ResetQuotes (p : Part) (number quoted : Octet) (i : SectionId) : Prop
    extends p.ResetNames number i where
  disturbed : (p.sec i).state = .disturbed
  current   : quoted = (p.sec i).number

theorem sectionResetRequest_headsNotReady {h : HeadId} (quotes : p.ResetQuotes number quoted i)
    (out : p.headNotReady (p.sectionCfg i) = some h) :
    sectionResetRequest [tag, number, mode, quoted] p =
      (p, { outcome := .refused .headsNotReady, items := [octetOf h.val, codeHeadState (p.head h).state] }) := by
  obtain ⟨⟨running, named, present⟩, disturbed, current⟩ := quotes
  simp [sectionResetRequest, field, running, named, present, disturbed, current, out]

theorem sectionResetRequest_sweep (quotes : p.ResetQuotes number quoted i)
    (ready : p.headNotReady (p.sectionCfg i) = none) :
    sectionResetRequest [tag, number, 1, quoted] p =
      ((p.setSec i { p.sec i with state := .restoring, tally := 0 }).mark i,
        done [octetOf i.val, codeSectionState .restoring, (p.sec i).number]) := by
  obtain ⟨⟨running, named, present⟩, disturbed, current⟩ := quotes
  simp [sectionResetRequest, field, running, named, present, disturbed, current, ready]

theorem sectionResetRequest_notPermitted (quotes : p.ResetQuotes number quoted i)
    (ready : p.headNotReady (p.sectionCfg i) = none) (forbidden : (p.sectionCfg i).directReset = false) :
    sectionResetRequest [tag, number, 2, quoted] p = (p, refuse .notPermitted) := by
  obtain ⟨⟨running, named, present⟩, disturbed, current⟩ := quotes
  simp [sectionResetRequest, field, running, named, present, disturbed, current, ready, forbidden]

theorem sectionResetRequest_direct (quotes : p.ResetQuotes number quoted i)
    (ready : p.headNotReady (p.sectionCfg i) = none) (permitted : (p.sectionCfg i).directReset = true) :
    sectionResetRequest [tag, number, 2, quoted] p =
      ((p.setSec i { p.sec i with state := .clear }).mark i,
        done [octetOf i.val, codeSectionState .clear, (p.sec i).number]) := by
  obtain ⟨⟨running, named, present⟩, disturbed, current⟩ := quotes
  simp [sectionResetRequest, field, running, named, present, disturbed, current, ready, permitted]

end

/-- Settles O35: the owner's answer by the first check that fails, or by the mode, and the request's own reply. -/
theorem sectionResetIsJudged : Obligations.SectionResetIsJudged := by
  intro s tag number mode quoted room modes
  have reset {p : Part} {a : Answer}
      (answers : sectionResetRequest [tag, number, mode, quoted] (s.toPart.setCountRx .wait) = (p, a))
      (count : p.count = (s.toPart.setCountRx .wait).count) :
      exec (.sectionReset [tag, number, mode, quoted]) s = s.answeredAfter p tag 0x14 a.outcome a.items :=
    State.next_requestArrives room (by simp) (requestForm_sectionReset modes) answers count
  refine ⟨fun elsewhere => ?_, fun running above => ?_, fun i running number => ?_⟩
  · exact reset (sectionResetRequest_notRunning (p := s.toPart.setCountRx .wait) elsewhere _) rfl
  · have named : sectionOf number = none := sectionOf_eq_none above
    exact reset (sectionResetRequest_outOfRange (p := s.toPart.setCountRx .wait) running named) rfl
  · have named : sectionOf _ = some i := (sectionOf_eq_some_iff _ i).2 number
    have names (present : (s.sectionCfg i).present = true) :
        (s.toPart.setCountRx .wait).ResetNames _ i := ⟨running, named, present⟩
    refine ⟨fun absent => ?_, fun present state => ?_, fun present state stale => ?_,
      fun present state current => ?_⟩
    · exact reset (sectionResetRequest_notPresent (p := s.toPart.setCountRx .wait) running named absent) rfl
    · exact reset (sectionResetRequest_notDisturbed (names present) state) rfl
    · exact reset (sectionResetRequest_stale (names present) state stale) rfl
    · have quotes : (s.toPart.setCountRx .wait).ResetQuotes _ quoted i := ⟨names present, state, current⟩
      refine ⟨fun h named out lowest => ?_, fun inService => ?_⟩
      · exact reset (sectionResetRequest_headsNotReady quotes (Part.headNotReady_eq_some named out lowest)) rfl
      · have ready : (s.toPart.setCountRx .wait).headNotReady (s.sectionCfg i) = none :=
          Part.headNotReady_eq_none inService
        refine ⟨?_, ?_, ?_⟩
        · rintro rfl
          exact reset (sectionResetRequest_sweep quotes ready) rfl
        · rintro rfl forbidden
          exact reset (sectionResetRequest_notPermitted quotes ready forbidden) rfl
        · rintro rfl permitted
          exact reset (sectionResetRequest_direct quotes ready permitted) rfl

end Sys2Proof.Machine
end

section
/-! SUPPORT. TABLE WRITE, TABLE READ and TABLE COPY (R128 to R130): the record that a request names, and the
answers of each owner. -/

namespace Sys2Proof.Machine

/-! ## The record that a request names (R69, R128) -/

theorem recordNumberInRange_global_false {number : Octet} (other : number ≠ 0) :
    recordNumberInRange .global number = false := by
  simpa [recordNumberInRange] using other

theorem recordNumberInRange_head_false {number : Octet} (above : 32 ≤ number.toNat) :
    recordNumberInRange .head number = false := by
  simp [recordNumberInRange, headOf_eq_none above]

theorem recordNumberInRange_section_false {number : Octet} (above : 24 ≤ number.toNat) :
    recordNumberInRange .sectionRecord number = false := by
  simp [recordNumberInRange, sectionOf_eq_none above]

theorem recordNumberInRange_head {number : Octet} {h : HeadId} (named : headOf number = some h) :
    recordNumberInRange .head number = true := by
  simp [recordNumberInRange, named]

theorem recordNumberInRange_section {number : Octet} {i : SectionId} (named : sectionOf number = some i) :
    recordNumberInRange .sectionRecord number = true := by
  simp [recordNumberInRange, named]

section

variable {t : Table} {number : Octet}

theorem Table.withRecord_head {h : HeadId} (named : headOf number = some h) (r : HeadRecord) :
    t.withRecord number (.head r) = { t with heads := t.heads.set h.val r h.isLt } := by
  simp [Table.withRecord, named]

theorem Table.withRecord_section {i : SectionId} (named : sectionOf number = some i) (r : SectionRecord) :
    t.withRecord number (.sectionRecord r) = { t with sections := t.sections.set i.val r i.isLt } := by
  simp [Table.withRecord, named]

theorem Table.record_head {h : HeadId} (named : headOf number = some h) :
    t.record .head number = .head t.heads[h] := by
  simp [Table.record, named]

theorem Table.record_section {i : SectionId} (named : sectionOf number = some i) :
    t.record .sectionRecord number = .sectionRecord t.sections[i] := by
  simp [Table.record, named]

end

/-! ## TABLE WRITE (R128) -/

theorem requestForm_tableWrite {tag code number : Octet} {kind : RecordKind} {octets : List Octet}
    (named : recordKindOf code = some kind) :
    requestForm kindTableWrite (tag :: code :: number :: octets) = true := by
  have codes : code = 1 ∨ code = 2 ∨ code = 3 := by
    unfold recordKindOf at named
    split_ifs at named <;> simp [*]
  have form : requestForm kindTableWrite (tag :: code :: number :: octets) = namesOneOf 3 code := by
    simp [requestForm, field, kindTableWrite, kindSectionQuery, kindHeadQuery, kindHeadRelease, kindHeadAdopt,
      kindLinkQuery, kindSectionReset, kindHeadRelay]
  rw [form]
  rcases codes with rfl | rfl | rfl <;> rfl

section

variable {p : Part} {tag code number : Octet} {kind : RecordKind} {octets : List Octet} {record : TableRecord}

theorem tableWriteRequest_malformed (named : recordKindOf code = some kind)
    (malformed : decodeRecord kind octets = none) :
    tableWriteRequest (tag :: code :: number :: octets) p = (p, refuse .format) := by
  simp [tableWriteRequest, field, recordOctets, named, malformed]

theorem tableWriteRequest_outOfRange (named : recordKindOf code = some kind)
    (decoded : decodeRecord kind octets = some record) (out : recordNumberInRange kind number = false) :
    tableWriteRequest (tag :: code :: number :: octets) p = (p, refuse .range) := by
  simp [tableWriteRequest, field, recordOctets, named, decoded, out]

theorem tableWriteRequest_written (named : recordKindOf code = some kind)
    (decoded : decodeRecord kind octets = some record) (inRange : recordNumberInRange kind number = true) :
    tableWriteRequest (tag :: code :: number :: octets) p =
      (p.setTables { p.tables with
        staging := p.tables.staging.withRecord number record, stagingState := .editing }, done []) := by
  simp [tableWriteRequest, field, recordOctets, named, decoded, inRange]

end

/-- Settles O38: the owner's answer by the form of the record and then by its number, and the request's own
reply. -/
theorem tableWriteReplacesARecord : Obligations.TableWriteReplacesARecord := by
  intro s tag number octets room short
  have write {code : Octet} {kind : RecordKind} {p : Part} {a : Answer} (named : recordKindOf code = some kind)
      (answers : tableWriteRequest (tag :: code :: number :: octets) (s.toPart.setCountRx .wait) = (p, a))
      (count : p.count = (s.toPart.setCountRx .wait).count) :
      exec (.tableWrite (tag :: code :: number :: octets)) s = s.answeredAfter p tag 0x1A a.outcome a.items :=
    State.next_requestArrives room (by simp; omega) (requestForm_tableWrite named) answers count
  have isGlobal : recordKindOf 1 = some .global := rfl
  have isHead : recordKindOf 2 = some .head := rfl
  have isSection : recordKindOf 3 = some .sectionRecord := rfl
  refine ⟨fun malformed => ?_, fun malformed => ?_, fun malformed => ?_, fun g decoded => ⟨fun other => ?_, ?_⟩,
    fun r decoded => ⟨fun above => ?_, fun h number => ?_⟩, fun r decoded => ⟨fun above => ?_, fun i number => ?_⟩⟩
  · exact write isGlobal (tableWriteRequest_malformed isGlobal (by simp [decodeRecord, malformed])) rfl
  · exact write isHead (tableWriteRequest_malformed isHead (by simp [decodeRecord, malformed])) rfl
  · exact write isSection (tableWriteRequest_malformed isSection (by simp [decodeRecord, malformed])) rfl
  · have record : decodeRecord .global octets = some (.global g) := by simp [decodeRecord, decoded]
    exact write isGlobal
      (tableWriteRequest_outOfRange isGlobal record (recordNumberInRange_global_false other)) rfl
  · rintro rfl
    have record : decodeRecord .global octets = some (.global g) := by simp [decodeRecord, decoded]
    exact write isGlobal (tableWriteRequest_written isGlobal record rfl) rfl
  · have record : decodeRecord .head octets = some (.head r) := by simp [decodeRecord, decoded]
    exact write isHead (tableWriteRequest_outOfRange isHead record (recordNumberInRange_head_false above)) rfl
  · have record : decodeRecord .head octets = some (.head r) := by simp [decodeRecord, decoded]
    have named : headOf _ = some h := (headOf_eq_some_iff _ h).2 number
    have written := tableWriteRequest_written (tag := tag) (p := s.toPart.setCountRx .wait) isHead record
      (recordNumberInRange_head named)
    rw [Table.withRecord_head named] at written
    exact write isHead written rfl
  · have record : decodeRecord .sectionRecord octets = some (.sectionRecord r) := by simp [decodeRecord, decoded]
    exact write isSection
      (tableWriteRequest_outOfRange isSection record (recordNumberInRange_section_false above)) rfl
  · have record : decodeRecord .sectionRecord octets = some (.sectionRecord r) := by simp [decodeRecord, decoded]
    have named : sectionOf _ = some i := (sectionOf_eq_some_iff _ i).2 number
    have written := tableWriteRequest_written (tag := tag) (p := s.toPart.setCountRx .wait) isSection record
      (recordNumberInRange_section named)
    rw [Table.withRecord_section named] at written
    exact write isSection written rfl

/-! ## TABLE READ and TABLE COPY (R129, R130) -/

theorem requestForm_tableRead {tag copy code number : Octet} {kind : RecordKind} (copies : copy = 1 ∨ copy = 2)
    (named : recordKindOf code = some kind) :
    requestForm kindTableRead [tag, copy, code, number] = true := by
  have codes : code = 1 ∨ code = 2 ∨ code = 3 := by
    unfold recordKindOf at named
    split_ifs at named <;> simp [*]
  rcases copies with rfl | rfl <;> rcases codes with rfl | rfl | rfl <;> rfl

/-- The items of TABLE READ after a record of the staging table (R129, R166). -/
def TableManager.stagingItems (m : TableManager) : List Octet :=
  (match m.stagingState with
    | .editing => [1, 0, 0, 0]
    | .checked crc => [2, 1] ++ octets16 crc) ++
  (match m.lastCheck with
    | .none => [0, 0, 0, 0]
    | .pass crc => [1] ++ octets16 crc ++ [0]
    | .fail f => [2, codeCheck f.code, codeRecordKind f.kind, octetOf f.number])

theorem TableManager.stagingItems_eq (m : TableManager) :
    m.stagingItems =
      [codeStagingState m.stagingState] ++ optional 2 (m.stagingState.crc.map octets16) ++
        checkResultItem m.lastCheck := by
  unfold TableManager.stagingItems
  cases m.stagingState <;> cases m.lastCheck <;> rfl

section

variable {p : Part} {tag code number : Octet} {kind : RecordKind}

theorem tableReadRequest_outOfRange (copy : Octet) (named : recordKindOf code = some kind)
    (out : recordNumberInRange kind number = false) :
    tableReadRequest [tag, copy, code, number] p = (p, refuse .range) := by
  simp [tableReadRequest, field, named, out]

theorem tableReadRequest_noTable (named : recordKindOf code = some kind)
    (inRange : recordNumberInRange kind number = true) (noTable : p.tables.active = none) :
    tableReadRequest [tag, 1, code, number] p = (p, refuse .state) := by
  simp [tableReadRequest, field, named, inRange, noTable]

theorem tableReadRequest_active {a : ActiveTable} (named : recordKindOf code = some kind)
    (inRange : recordNumberInRange kind number = true) (active : p.tables.active = some a) :
    tableReadRequest [tag, 1, code, number] p =
      (p, done (encodeRecord (a.table.record kind number) ++ octets16 a.crc)) := by
  simp [tableReadRequest, field, named, inRange, active]

theorem tableReadRequest_staging (named : recordKindOf code = some kind)
    (inRange : recordNumberInRange kind number = true) :
    tableReadRequest [tag, 2, code, number] p =
      (p, done (encodeRecord (p.tables.staging.record kind number) ++ p.tables.stagingItems)) := by
  simp [tableReadRequest, field, named, inRange, TableManager.stagingItems_eq]

theorem tableCopyRequest_noTable (noTable : p.tables.active = none) (body : List Octet) :
    tableCopyRequest body p = (p, refuse .state) := by
  simp [tableCopyRequest, noTable]

theorem tableCopyRequest_active {a : ActiveTable} (active : p.tables.active = some a) (body : List Octet) :
    tableCopyRequest body p =
      (p.setTables { p.tables with
        staging := a.table, stagingState := .checked a.crc, lastCheck := .pass a.crc },
      done (octets16 a.crc)) := by
  simp [tableCopyRequest, active]

end

/-- Settles O39: the number first, then the copy that is read, and the copy of the active table. -/
theorem tableReadAndCopy : Obligations.TableReadAndCopy := by
  intro s tag copy code number room copies
  have read {kind : RecordKind} {p : Part} {a : Answer} (named : recordKindOf code = some kind)
      (answers : tableReadRequest [tag, copy, code, number] (s.toPart.setCountRx .wait) = (p, a))
      (count : p.count = (s.toPart.setCountRx .wait).count) :
      exec (.tableRead [tag, copy, code, number]) s = s.answeredAfter p tag 0x1B a.outcome a.items :=
    State.next_requestArrives room (by simp) (requestForm_tableRead copies named) answers count
  have copied {p : Part} {a : Answer}
      (answers : tableCopyRequest [tag] (s.toPart.setCountRx .wait) = (p, a))
      (count : p.count = (s.toPart.setCountRx .wait).count) :
      exec (.tableCopy [tag]) s = s.answeredAfter p tag 0x1C a.outcome a.items :=
    State.next_requestArrives room (by simp) rfl answers count
  refine ⟨fun out => ?_, fun record names => ?_, fun noTable => ?_, fun a active => ?_⟩
  · obtain ⟨kind, named, outside⟩ :
        ∃ kind, recordKindOf code = some kind ∧ recordNumberInRange kind number = false := by
      rcases out with ⟨rfl, other⟩ | ⟨rfl, above⟩ | ⟨rfl, above⟩
      · exact ⟨.global, rfl, recordNumberInRange_global_false other⟩
      · exact ⟨.head, rfl, recordNumberInRange_head_false above⟩
      · exact ⟨.sectionRecord, rfl, recordNumberInRange_section_false above⟩
    exact read named (tableReadRequest_outOfRange copy named outside) rfl
  · obtain ⟨kind, named, inRange, reads⟩ : ∃ kind, recordKindOf code = some kind ∧
        recordNumberInRange kind number = true ∧ ∀ t, record t = encodeRecord (t.record kind number) := by
      rcases names with ⟨rfl, rfl, reads⟩ | ⟨rfl, h, number, reads⟩ | ⟨rfl, i, number, reads⟩
      · exact ⟨.global, rfl, rfl, reads⟩
      · have named : headOf _ = some h := (headOf_eq_some_iff _ h).2 number
        exact ⟨.head, rfl, recordNumberInRange_head named,
          fun t => (reads t).trans (by rw [Table.record_head named, encodeRecord])⟩
      · have named : sectionOf _ = some i := (sectionOf_eq_some_iff _ i).2 number
        exact ⟨.sectionRecord, rfl, recordNumberInRange_section named,
          fun t => (reads t).trans (by rw [Table.record_section named, encodeRecord])⟩
    refine ⟨?_, ?_, ?_⟩
    · rintro rfl noTable
      exact read named (tableReadRequest_noTable named inRange noTable) rfl
    · rintro a rfl active
      rw [reads]
      exact read named (tableReadRequest_active named inRange active) rfl
    · rintro rfl
      rw [reads, List.append_assoc]
      exact read named (tableReadRequest_staging named inRange) rfl
  · exact copied (tableCopyRequest_noTable (p := s.toPart.setCountRx .wait) noTable _) rfl
  · exact copied (tableCopyRequest_active (p := s.toPart.setCountRx .wait) active _) rfl

end Sys2Proof.Machine
end

section
/-! SUPPORT. TABLE CHECK (R131) and the checks C1 to C8 (R76 to R81): what each finds, in the words of its rule. -/

namespace Sys2Proof.Machine

/-! ## The first record that fails (R76) -/

/-- A search of numbered records in ascending number finds the first that fails. -/
theorem findsFirst_find? {n : Nat} (code : CheckCode) (kind : RecordKind) {test : Fin n → Bool}
    {fails : Fin n → Prop} (judges : ∀ i, test i = true ↔ fails i) :
    findsFirst code kind fails
      (((List.finRange n).find? test).map fun i => { code := code, kind := kind, number := i.val }) := by
  refine ⟨fun pass => ?_, fun i fail lowest => ?_⟩
  · rw [Option.map_eq_none_iff, List.find?_eq_none]
    exact fun i _ found => pass i ((judges i).1 found)
  · have found : (List.finRange n).find? test = some i := by
      rw [← Fin.find?_eq_find?_finRange, Fin.find?_eq_some_iff]
      exact ⟨(judges i).2 fail, fun j below => Bool.eq_false_iff.2 fun found => lowest j below ((judges j).1 found)⟩
    rw [found, Option.map_some]

theorem findsFirst_firstHead {code : CheckCode} {test : HeadId → Bool} {fails : HeadId → Prop}
    (judges : ∀ h, test h = true ↔ fails h) : findsFirst code .head fails (firstHead code test) :=
  findsFirst_find? code .head judges

theorem findsFirst_firstSection {code : CheckCode} {test : SectionId → Bool} {fails : SectionId → Prop}
    (judges : ∀ i, test i = true ↔ fails i) : findsFirst code .sectionRecord fails (firstSection code test) :=
  findsFirst_find? code .sectionRecord judges

theorem firstHead_eq_none {code : CheckCode} {test : HeadId → Bool} (pass : ∀ h, test h = false) :
    firstHead code test = none := by
  simp [firstHead, pass]

/-! ## C1 (R77) -/

theorem inSteps_iff (low high step value : Nat) :
    inSteps low high step value = true ↔ low ≤ value ∧ value ≤ high ∧ value % step = 0 := by
  simp [inSteps, and_assoc]

/-- A step of 1 asks no more than the range. -/
theorem inSteps_one (low high value : Nat) :
    inSteps low high 1 value = (decide (low ≤ value) && decide (value ≤ high)) := by
  simp [inSteps, Nat.mod_one]

theorem namesOneOf_two_iff (o : Octet) : namesOneOf 2 o = true ↔ o = 1 ∨ o = 2 := by
  simp only [namesOneOf, Bool.and_eq_true, decide_eq_true_eq]
  bv_omega

/-- A threshold of four bits is in range unless it is 0. -/
theorem threshold_ne_zero_iff (v : BitVec 4) : ¬ v = 0 ↔ 1 ≤ v.toNat ∧ v.toNat ≤ 15 := by
  bv_omega

theorem GlobalRecord.inRange_iff (g : GlobalRecord) : g.inRange = true ↔ g.fieldsInRange := by
  simp only [GlobalRecord.inRange, GlobalRecord.fieldsInRange, Bool.and_eq_true, inSteps_iff, namesOneOf_two_iff,
    List.all_eq_true, List.mem_finRange, forall_const, bne_iff_ne, ne_eq, threshold_ne_zero_iff, and_assoc]

theorem HeadRecord.inRange_iff (r : HeadRecord) : r.inRange = true ↔ r.fieldsInRange := by
  simp only [HeadRecord.inRange, HeadRecord.fieldsInRange, inSteps_one, Bool.and_eq_true, inSteps_iff,
    decide_eq_true_eq, and_assoc]

theorem SectionRecord.inRange_iff (r : SectionRecord) : r.inRange = true ↔ r.fieldsInRange := by
  simp only [SectionRecord.inRange, SectionRecord.fieldsInRange, inSteps_one, Bool.and_eq_true, inSteps_iff,
    namesOneOf_two_iff, List.all_eq_true, decide_eq_true_eq, Nat.zero_le, true_and, and_assoc]

section

variable {t : Table}

/-- What C1 tests of a head. -/
theorem Table.headBad_iff (t : Table) (h : HeadId) :
    ((t.headCfg h).present && !(t.headCfg h).inRange) = true ↔
      (t.headCfg h).present = true ∧ ¬ (t.headCfg h).fieldsInRange := by
  rw [Bool.and_eq_true, ← HeadRecord.inRange_iff, Bool.not_eq_true', Bool.not_eq_true]

/-- What C1 tests of a section. -/
theorem Table.sectionBad_iff (t : Table) (i : SectionId) :
    ((t.sectionCfg i).present && !(t.sectionCfg i).inRange) = true ↔
      (t.sectionCfg i).present = true ∧ ¬ (t.sectionCfg i).fieldsInRange := by
  rw [Bool.and_eq_true, ← SectionRecord.inRange_iff, Bool.not_eq_true', Bool.not_eq_true]

theorem Table.checkC1_global (bad : ¬ t.global.fieldsInRange) : t.checkC1 = some (globalFailure .c1) :=
  if_pos (Bool.eq_false_iff.2 (mt t.global.inRange_iff.1 bad))

theorem Table.checkC1_of_global (good : t.global.fieldsInRange) :
    t.checkC1 =
      match firstHead .c1 fun h => (t.headCfg h).present && !(t.headCfg h).inRange with
      | some f => some f
      | none => firstSection .c1 fun i => (t.sectionCfg i).present && !(t.sectionCfg i).inRange := by
  have inRange := t.global.inRange_iff.2 good
  simp only [Table.checkC1, inRange]
  rfl

theorem Table.checkC1_findsHead (good : t.global.fieldsInRange)
    {bad : HeadId → Prop} (means : ∀ h, bad h ↔ (t.headCfg h).present = true ∧ ¬ (t.headCfg h).fieldsInRange)
    (some_bad : ∃ h, bad h) : findsFirst .c1 .head bad t.checkC1 := by
  have finds := findsFirst_firstHead (code := .c1) fun h => (t.headBad_iff h).trans (means h).symm
  refine ⟨fun none_bad => absurd some_bad (not_exists.2 none_bad), fun h fail lowest => ?_⟩
  rw [Table.checkC1_of_global good, finds.2 h fail lowest]

theorem Table.checkC1_findsSection (good : t.global.fieldsInRange)
    (heads : ∀ h, (t.headCfg h).present = true → (t.headCfg h).fieldsInRange)
    {bad : SectionId → Prop}
    (means : ∀ i, bad i ↔ (t.sectionCfg i).present = true ∧ ¬ (t.sectionCfg i).fieldsInRange) :
    findsFirst .c1 .sectionRecord bad t.checkC1 := by
  have noHead : firstHead .c1 (fun h => (t.headCfg h).present && !(t.headCfg h).inRange) = none :=
    firstHead_eq_none fun h => Bool.eq_false_iff.2 fun found =>
      absurd (heads h ((t.headBad_iff h).1 found).1) ((t.headBad_iff h).1 found).2
  rw [Table.checkC1_of_global good, noHead]
  exact findsFirst_firstSection fun i => (t.sectionBad_iff i).trans (means i).symm

end

/-! ## C2 to C4 (R78) -/

theorem Table.checkC2_finds (t : Table) :
    findsFirst .c2 .sectionRecord (fun i => (t.sectionCfg i).present = true ∧
      ((t.sectionCfg i).boundary = [] ∨ 4 < (t.sectionCfg i).boundary.length)) t.checkC2 :=
  findsFirst_firstSection fun i => by simp

/-- An entry names no present head: its head is above 31, or its record is not present. -/
theorem Table.entryPresent_eq_false_iff (t : Table) (e : BoundaryEntry) :
    t.entryPresent e = false ↔ ∀ h : HeadId, h.val = e.head.toNat → (t.headCfg h).present = false := by
  unfold Table.entryPresent
  cases named : headOf e.head with
  | none =>
    simp only [true_iff]
    intro h number
    rw [(headOf_eq_some_iff _ h).2 number.symm] at named
    cases named
  | some g =>
    have number := (headOf_eq_some_iff _ g).1 named
    refine ⟨fun absent h same => ?_, fun absent => absent g number.symm⟩
    rwa [show h = g from Fin.ext (same.trans number)]

theorem Table.checkC3_finds (t : Table) :
    findsFirst .c3 .sectionRecord (fun i => (t.sectionCfg i).present = true ∧
      ∃ e ∈ (t.sectionCfg i).boundary,
        ∀ h : HeadId, h.val = e.head.toNat → (t.headCfg h).present = false) t.checkC3 :=
  findsFirst_firstSection fun i => by simp [Table.entryPresent_eq_false_iff]

theorem distinctHeads_iff (entries : List BoundaryEntry) :
    distinctHeads entries = true ↔ (entries.map fun e => e.head).Nodup := by
  induction entries with
  | nil => simp [distinctHeads]
  | cons e rest ih =>
    rw [distinctHeads, Bool.and_eq_true, ih, List.map_cons, List.nodup_cons]
    simp

theorem Table.checkC4_finds (t : Table) :
    findsFirst .c4 .sectionRecord (fun i => (t.sectionCfg i).present = true ∧
      ¬ ((t.sectionCfg i).boundary.map fun e => e.head).Nodup) t.checkC4 :=
  findsFirst_firstSection fun i => by
    rw [Bool.and_eq_true, ← distinctHeads_iff, Bool.not_eq_true', Bool.not_eq_true]

/-! ## C5 (R79) -/

/-- The directions that fail C5: more than two, or two alike. -/
theorem sensesAgree_eq_false_iff (directions : List Octet) :
    sensesAgree directions = false ↔ 2 < directions.length ∨ ∃ d, directions = [d, d] := by
  match directions with
  | [] => simp [sensesAgree]
  | [_] => simp [sensesAgree]
  | [_, _] => simpa [sensesAgree] using eq_comm
  | _ :: _ :: _ :: _ => simp [sensesAgree]

/-- A list taken section by section, the sections left out giving nothing. -/
theorem flatMap_filter {α β : Type} (test : α → Bool) (f : α → List β) (as : List α) :
    (as.filter test).flatMap f = as.flatMap fun a => if test a then f a else [] := by
  induction as with
  | nil => rfl
  | cons a as ih => cases kept : test a <;> simp [kept, ih]

theorem Table.checkC5_finds (t : Table) {entries : HeadId → List Octet}
    (means : ∀ h, entries h = (List.finRange 24).flatMap fun i =>
      if (t.sectionCfg i).present then
        ((t.sectionCfg i).boundary.filter fun e => decide (e.head.toNat = h.val)).map fun e => e.inward
      else []) :
    findsFirst .c5 .head (fun h => (t.headCfg h).present = true ∧
      (2 < (entries h).length ∨ ∃ direction, entries h = [direction, direction])) t.checkC5 := by
  have inwards (h : HeadId) : t.inwardsOf h = entries h := by
    rw [means, Table.inwardsOf, Table.presentSections, flatMap_filter]
    rfl
  exact findsFirst_firstHead fun h => by
    rw [Bool.and_eq_true, Bool.not_eq_true', sensesAgree_eq_false_iff, inwards]

/-! ## C6 to C8 (R80, R81) -/

theorem Table.checkC6_finds (t : Table) :
    findsFirst .c6 .head (fun h => (t.headCfg h).present = true ∧
      ∃ g, g < h ∧ (t.headCfg g).present = true ∧ (t.headCfg g).link = (t.headCfg h).link ∧
        (t.headCfg g).station = (t.headCfg h).station) t.checkC6 :=
  findsFirst_firstHead fun h => by simp [and_assoc]

theorem Table.linkEnabled_eq_false_iff (t : Table) (link : Octet) :
    t.linkEnabled link = false ↔ ∀ l : LinkId, l.val = link.toNat → t.global.enabled[l] = false := by
  unfold Table.linkEnabled
  cases named : linkOf link with
  | none =>
    simp only [true_iff]
    intro l number
    rw [(linkOf_eq_some_iff _ l).2 number.symm] at named
    cases named
  | some k =>
    have number := (linkOf_eq_some_iff _ k).1 named
    refine ⟨fun disabled l same => ?_, fun disabled => disabled k number.symm⟩
    rwa [show l = k from Fin.ext (same.trans number)]

theorem Table.checkC7_finds (t : Table) :
    findsFirst .c7 .head (fun h => (t.headCfg h).present = true ∧
      ∀ l : LinkId, l.val = (t.headCfg h).link.toNat → t.global.enabled[l] = false) t.checkC7 :=
  findsFirst_firstHead fun h => by rw [Bool.and_eq_true, Bool.not_eq_true', Table.linkEnabled_eq_false_iff]

theorem Table.checkC8_of_present {t : Table} {i : SectionId} (present : (t.sectionCfg i).present = true) :
    t.checkC8 = none := by
  have listed : t.presentSections ≠ [] := List.ne_nil_of_mem ((t.mem_presentSections i).2 present)
  simp [Table.checkC8, listed]

theorem Table.checkC8_of_absent {t : Table} (absent : ∀ i, (t.sectionCfg i).present = false) :
    t.checkC8 = some (globalFailure .c8) := by
  simp [Table.checkC8, Table.presentSections, absent]

/-! ## The checks in order (R76) -/

theorem Table.firstFailure_of_split {t : Table} {before after : List (Option CheckFailure)} {f : CheckFailure}
    (split : [t.checkC1, t.checkC2, t.checkC3, t.checkC4, t.checkC5, t.checkC6, t.checkC7, t.checkC8] =
      before ++ some f :: after) (pass : ∀ c ∈ before, c = none) : t.firstFailure = some f := by
  have none_before : before.findSome? id = none := List.findSome?_eq_none_iff.2 pass
  rw [Table.firstFailure, split, List.findSome?_append, none_before]
  rfl

theorem Table.firstFailure_eq_none_iff (t : Table) :
    t.firstFailure = none ↔
      t.checkC1 = none ∧ t.checkC2 = none ∧ t.checkC3 = none ∧ t.checkC4 = none ∧
        t.checkC5 = none ∧ t.checkC6 = none ∧ t.checkC7 = none ∧ t.checkC8 = none := by
  simp [Table.firstFailure, List.findSome?_eq_none_iff]

/-! ## TABLE CHECK (R131) -/

theorem tableCheckRequest_passes {p : Part} (passes : p.tables.staging.firstFailure = none) (body : List Octet) :
    tableCheckRequest body p =
      (p.setTables { p.tables with
        stagingState := .checked (tableCrc p.tables.staging), lastCheck := .pass (tableCrc p.tables.staging) },
      done (octets16 (tableCrc p.tables.staging))) := by
  simp [tableCheckRequest, passes]

theorem tableCheckRequest_fails {p : Part} {f : CheckFailure} (fails : p.tables.staging.firstFailure = some f)
    (body : List Octet) :
    tableCheckRequest body p =
      (p.setTables { p.tables with stagingState := .editing, lastCheck := .fail f },
      { outcome := .refused .notChecked
        items := [codeCheck f.code, codeRecordKind f.kind, octetOf f.number] }) := by
  simp [tableCheckRequest, fails]

/-- Settles O40: the owner's answer by the first failure, the order of the checks, and each check by its rule. -/
theorem tableCheckJudgesStaging : Obligations.TableCheckJudgesStaging := by
  refine ⟨fun s tag room => ?_, fun t before after f => Table.firstFailure_of_split,
    Table.firstFailure_eq_none_iff, fun t badHead badSection heads sections => ?_, fun t => ?_⟩
  · have check {p : Part} {a : Answer}
        (answers : tableCheckRequest [tag] (s.toPart.setCountRx .wait) = (p, a))
        (count : p.count = (s.toPart.setCountRx .wait).count) :
        exec (.tableCheck [tag]) s = s.answeredAfter p tag 0x1D a.outcome a.items :=
      State.next_requestArrives room (by simp) rfl answers count
    refine ⟨fun passes => ?_, fun f fails => ?_⟩
    · exact check (tableCheckRequest_passes (p := s.toPart.setCountRx .wait) passes _) rfl
    · exact check (tableCheckRequest_fails (p := s.toPart.setCountRx .wait) fails _) rfl
  · refine ⟨Table.checkC1_global, fun good => Table.checkC1_findsHead good heads, fun good none_bad => ?_⟩
    refine Table.checkC1_findsSection good (fun h present => ?_) sections
    by_contra bad
    exact none_bad h ((heads h).2 ⟨present, bad⟩)
  · exact ⟨t.checkC2_finds, t.checkC3_finds, t.checkC4_finds, fun entries means => t.checkC5_finds means,
      t.checkC6_finds, t.checkC7_finds, fun ⟨i, present⟩ => Table.checkC8_of_present present,
      Table.checkC8_of_absent⟩

end Sys2Proof.Machine
end

section
/-! SUPPORT. TABLE ACTIVATE (R132 to R138): the delta in the words of its rules, and what its six steps make of each
record of the part. -/

namespace Sys2Proof.Machine

/-! ## The delta (R134 to R137) -/

section

variable {old new : Table} {h : HeadId} {i : SectionId} {l : LinkId}

theorem headCleared_iff : headCleared old new h = true ↔ activationClears old new h := by
  simp [headCleared, remapped, removed, activationClears, or_assoc]

/-- A head is remapped when it is cleared and stands in the new table. -/
theorem remapped_iff :
    remapped old new h = true ↔ (new.headCfg h).present = true ∧ activationClears old new h := by
  rw [← headCleared_iff, headCleared, Bool.or_eq_true]
  cases present : (new.headCfg h).present <;> simp [remapped, removed, present]

theorem sectionDiffers_iff :
    sectionDiffers old new i = true ↔
      (old.sectionCfg i).boundary ≠ (new.sectionCfg i).boundary ∨
        (old.sectionCfg i).countLimit ≠ (new.sectionCfg i).countLimit ∨
        ∃ h, (new.sectionCfg i).names h = true ∧ (new.headCfg h).present = true ∧
          activationClears old new h := by
  simp [sectionDiffers, remapped_iff, or_assoc]

theorem sectionClass_eq_changed_iff : sectionClass old new i = .changed ↔ activationChanges old new i := by
  rw [activationChanges, ← sectionDiffers_iff, sectionClass]
  split_ifs <;> simp [*]

theorem sectionClass_eq_new_iff :
    sectionClass old new i = .new ↔
      (old.sectionCfg i).present = false ∧ (new.sectionCfg i).present = true := by
  rw [sectionClass]
  split_ifs <;> simp_all

theorem sectionClass_eq_removed_iff :
    sectionClass old new i = .removed ↔
      (old.sectionCfg i).present = true ∧ (new.sectionCfg i).present = false := by
  rw [sectionClass]
  split_ifs <;> simp_all

theorem linkDisabled_iff :
    linkDisabled old new l = true ↔ old.global.enabled[l] = true ∧ new.global.enabled[l] = false := by
  simp [linkDisabled]

theorem linkNewlyEnabled_iff :
    linkNewlyEnabled old new l = true ↔ old.global.enabled[l] = false ∧ new.global.enabled[l] = true := by
  simp [linkNewlyEnabled]

theorem relayCancelled_iff {c : RelayCommand} :
    relayCancelled old new l c = true ↔ activationCancels old new l c := by
  rw [relayCancelled, Bool.or_eq_true, linkDisabled_iff, activationCancels]
  cases c.target <;> simp [headCleared_iff]

end

/-- An activation touches a section that it finds changed, new or removed (R135). -/
def sectionTouched (old new : Table) (i : SectionId) : Bool :=
  sectionClass old new i == .changed || sectionClass old new i == .new || sectionClass old new i == .removed

theorem sectionTouched_iff {old new : Table} {i : SectionId} :
    sectionTouched old new i = true ↔
      activationChanges old new i ∨
        ((old.sectionCfg i).present = false ∧ (new.sectionCfg i).present = true) ∨
        (old.sectionCfg i).present = true ∧ (new.sectionCfg i).present = false := by
  simp [sectionTouched, sectionClass_eq_changed_iff, sectionClass_eq_new_iff, sectionClass_eq_removed_iff,
    or_assoc]

open Classical in
theorem sectionsDisturbed_eq {old new : Table} {added : SectionId → Prop}
    (means : ∀ i, added i ↔ (old.sectionCfg i).present = false ∧ (new.sectionCfg i).present = true) :
    sectionsDisturbed old new =
      ((List.finRange 24).filter fun i => decide (activationChanges old new i ∨ added i)).length := by
  refine congrArg List.length (List.filter_congr fun i _ => ?_)
  rw [Bool.eq_iff_iff, decide_eq_true_iff, means, ← sectionClass_eq_changed_iff, ← sectionClass_eq_new_iff]
  simp

/-! ## Heads and decoders (R17, R45, R134) -/

/-- A record that a fold writes once for each index, by a function of the record alone. -/
theorem foldl_record {α β ι : Type} [DecidableEq ι] (read : α → ι → β) (g : α → ι → α) (f : ι → β → β)
    (one : ∀ a i j, read (g a i) j = if j = i then f i (read a i) else read a j)
    {is : List ι} (distinct : is.Nodup) (a : α) (j : ι) :
    read (is.foldl g a) j = if j ∈ is then f j (read a j) else read a j := by
  induction is generalizing a with
  | nil => simp
  | cons i is ih =>
    obtain ⟨fresh, distinct⟩ := List.nodup_cons.1 distinct
    rw [List.foldl_cons, ih distinct]
    by_cases own : j = i
    · subst own
      simp [fresh, one]
    · simp [own, one]

theorem Part.activateHeads_decoder (p : Part) (old new : Table) (h : HeadId) :
    (p.activateHeads old new).decoder h = if headCleared old new h then DecoderRec.reset else p.decoder h := by
  have each := foldl_record Part.decoder (fun q h => if headCleared old new h then q.clearHead h else q)
    (fun h d => if headCleared old new h then DecoderRec.reset else d) (fun q h k => by
      by_cases cleared : headCleared old new h
      · simp [cleared, Part.clearHead, Part.decoder_setDecoder_eq]
      · by_cases own : k = h <;> simp [cleared, own]) (List.nodup_finRange 32) p h
  rw [Part.activateHeads, each, if_pos (List.mem_finRange h)]

section

variable (p : Part) (crc : Crc)

open Classical in
theorem Part.activate_clears_head (h : HeadId) :
    (p.activate crc).head h =
      if activationClears p.activeTable p.tables.staging h then
        { HeadRec.reset with lastCause := (p.head h).lastCause }
      else p.head h := by
  rw [Part.activate_head]
  exact if_congr headCleared_iff rfl rfl

open Classical in
theorem Part.activate_clears_decoder (h : HeadId) :
    (p.activate crc).decoder h =
      if activationClears p.activeTable p.tables.staging h then DecoderRec.reset else p.decoder h := by
  have cleared : (p.activate crc).decoder h =
      if headCleared p.activeTable p.tables.staging h then DecoderRec.reset else p.decoder h := by
    simp [Part.activate, Part.activateHeads_decoder]
  rw [cleared]
  exact if_congr headCleared_iff rfl rfl

end

/-! ## Sections (R105, R106, R135) -/

open Classical in
theorem SectionRec.activated_eq (r : SectionRec) {old new : Table} {i : SectionId} {added : Prop}
    (means : added ↔ (old.sectionCfg i).present = false ∧ (new.sectionCfg i).present = true) :
    r.activated (sectionClass old new i) =
      if activationChanges old new i then
        { r with
          state := .disturbed, count := 0, confirm := .stopped, sweep := false
          cause := .reconfigured, number := r.number + 1
          latch := r.latch || decide (r.state = .clear) }
      else if added then
        { SectionRec.reset with state := .disturbed, number := 1, cause := .reconfigured }
      else if (old.sectionCfg i).present = true ∧ (new.sectionCfg i).present = false then
        { r with
          state := .absent, count := 0, sweep := false, tally := 0, latch := false
          confirm := .stopped }
      else r := by
  simp only [means, ← sectionClass_eq_changed_iff, ← sectionClass_eq_new_iff, ← sectionClass_eq_removed_iff]
  cases sectionClass old new i <;> rfl

/-! ## Links (R58, R136, R137) -/

/-- A link's record after the cancellation of the commands that a test picks (R67). -/
def LinkRec.cancelling (k : LinkRec) (picked : RelayCommand → Bool) : LinkRec :=
  { k with
    queue := k.queue.filter fun c => !picked c
    timer := if k.queue.head?.any picked then .stopped else k.timer }

theorem Part.cancelRelays_cancelling (p : Part) (l m : LinkId) (picked : RelayCommand → Bool) :
    (p.cancelRelays l picked).link m = if m = l then (p.link l).cancelling picked else p.link m := by
  rw [Part.cancelRelays_link, LinkRec.cancelling]
  cases (p.link l).queue <;> rfl

theorem Part.activateRelays_link (p : Part) (old new : Table) (l : LinkId) :
    (p.activateRelays old new).link l = (p.link l).cancelling (relayCancelled old new l) := by
  have each := Part.foldl_link (fun q l => q.cancelRelays l (relayCancelled old new l))
    (fun l k => k.cancelling (relayCancelled old new l)) (fun q l m => q.cancelRelays_cancelling l m _)
    (List.finRange 4) (List.nodup_finRange 4) p l
  rw [Part.activateRelays, each, if_pos (List.mem_finRange l)]

/-- A link's record after an activation. -/
def LinkRec.activated (k : LinkRec) (old new : Table) (l : LinkId) : LinkRec :=
  let cancelled := k.cancelling (relayCancelled old new l)
  if linkNewlyEnabled old new l then cancelled.toSearch
  else if linkDisabled old new l then cancelled.toOff
  else cancelled

theorem Part.activate_link (p : Part) (crc : Crc) (l : LinkId) :
    (p.activate crc).link l = (p.link l).activated p.activeTable p.tables.staging l := by
  simp [Part.activate, Part.activateLinks_link, Part.activateRelays_link, LinkRec.activated]

/-- The relay timer is stopped by the cancellation of the command at the front. -/
theorem LinkRec.frontCancelled_iff (k : LinkRec) {old new : Table} {l : LinkId} :
    k.queue.head?.any (relayCancelled old new l) = true ↔
      ∃ c rest, k.queue = c :: rest ∧ activationCancels old new l c := by
  cases k.queue <;> simp [relayCancelled_iff]

open Classical in
theorem LinkRec.cancelling_eq (k : LinkRec) (old new : Table) (l : LinkId) :
    k.cancelling (relayCancelled old new l) =
      { k with
        queue := k.queue.filter fun c => decide (¬ activationCancels old new l c)
        timer := if ∃ c rest, k.queue = c :: rest ∧ activationCancels old new l c then .stopped else k.timer } := by
  have kept : k.queue.filter (fun c => !relayCancelled old new l c) =
      k.queue.filter fun c => decide (¬ activationCancels old new l c) :=
    List.filter_congr fun c _ => by simp [← relayCancelled_iff]
  rw [LinkRec.cancelling, kept]
  simp only [LinkRec.frontCancelled_iff]

open Classical in
theorem LinkRec.activated_eq (k : LinkRec) (old new : Table) (l : LinkId) :
    k.activated old new l = { k with
      mode :=
        if old.global.enabled[l] = false ∧ new.global.enabled[l] = true then .search none
        else if old.global.enabled[l] = true ∧ new.global.enabled[l] = false then .off
        else k.mode
      run := if old.global.enabled[l] = new.global.enabled[l] then k.run else 0
      queue := k.queue.filter fun c => decide (¬ activationCancels old new l c)
      timer :=
        if (old.global.enabled[l] = true ∧ new.global.enabled[l] = false) ∨
            ∃ c rest, k.queue = c :: rest ∧ activationCancels old new l c then .stopped
        else k.timer } := by
  rw [LinkRec.activated, LinkRec.cancelling_eq]
  simp only [linkNewlyEnabled_iff, linkDisabled_iff]
  cases before : old.global.enabled[l] <;> cases after : new.global.enabled[l] <;>
    simp [LinkRec.toSearch, LinkRec.toOff]

/-! ## Notices and marks (R68, R102, R138, R149, R153) -/

/-- The notices of the commands that an activation cancels on the links given, in order. -/
def Part.cancelNotices (p : Part) (old new : Table) (ls : List LinkId) : List Notice :=
  ls.flatMap fun l =>
    ((p.link l).queue.filter (relayCancelled old new l)).map fun c => relayNotice l c .cancelled

theorem Part.foldl_cancelRelays_report (old new : Table) {ls : List LinkId} (distinct : ls.Nodup) (p : Part) :
    (ls.foldl (fun q l => q.cancelRelays l (relayCancelled old new l)) p).report =
      (p.cancelNotices old new ls).foldl ReportUnit.offer p.report := by
  induction ls generalizing p with
  | nil => rfl
  | cons l ls ih =>
    obtain ⟨fresh, distinct⟩ := List.nodup_cons.1 distinct
    have later : (p.cancelRelays l (relayCancelled old new l)).cancelNotices old new ls =
        p.cancelNotices old new ls := by
      refine List.flatMap_congr fun m mem => ?_
      have other : m ≠ l := fun same => fresh (same ▸ mem)
      rw [Part.cancelRelays_link, if_neg other]
    rw [List.foldl_cons, ih distinct, later, Part.cancelRelays_report, ← List.foldl_append]
    rfl

open Classical in
theorem Part.cancelNotices_eq (p : Part) (old new : Table) (ls : List LinkId) :
    p.cancelNotices old new ls = ls.flatMap fun l =>
      ((p.link l).queue.filter fun c => decide (activationCancels old new l c)).map fun c =>
        Notice.relayResult l c.target c.station c.code c.tag .cancelled := by
  refine List.flatMap_congr fun l _ => ?_
  have cancelled : (p.link l).queue.filter (relayCancelled old new l) =
      (p.link l).queue.filter fun c => decide (activationCancels old new l c) :=
    List.filter_congr fun c _ => by simp [← relayCancelled_iff]
  rw [cancelled]
  rfl

theorem Part.activateSection_touched {old new : Table} {i : SectionId} (touched : sectionTouched old new i = true)
    (p : Part) : (p.activateSection old new i).report = p.report.mark i := by
  unfold sectionTouched at touched
  unfold Part.activateSection
  cases named : sectionClass old new i with
  | changed | new | removed => rfl
  | unchanged | untouched => simp [named] at touched

theorem Part.activateSection_untouched {old new : Table} {i : SectionId}
    (untouched : sectionTouched old new i = false) (p : Part) : p.activateSection old new i = p := by
  unfold sectionTouched at untouched
  unfold Part.activateSection
  cases named : sectionClass old new i with
  | changed | new | removed => simp [named] at untouched
  | unchanged | untouched => rfl

/-- The sections touched join the report queue in ascending number, where they do not stand in it already. -/
theorem Part.activateSections_report (p : Part) (old new : Table) :
    (p.activateSections old new).report = { p.report with
      queue := p.report.queue ++ (List.finRange 24).filter fun i =>
        decide (i ∉ p.report.queue) && sectionTouched old new i } := by
  have touched : p.activateSections old new =
      ((List.finRange 24).filter (sectionTouched old new)).foldl (fun q i => q.activateSection old new i) p := by
    rw [List.foldl_filter, Part.activateSections]
    congr 1
    funext q i
    split_ifs with touched
    · rfl
    · exact q.activateSection_untouched (by simpa using touched)
  rw [touched, Part.foldl_marks _ _ ((List.nodup_finRange 24).filter _) p
    fun q i listed => q.activateSection_touched (List.of_mem_filter listed), List.filter_filter]

/-- A notice offered does not look at the report cycle. -/
theorem ReportUnit.offer_cycleTimer (r : ReportUnit) (timer : Timer) (n : Notice) :
    ({ r with cycleTimer := timer } : ReportUnit).offer n = { r.offer n with cycleTimer := timer } := by
  rw [ReportUnit.offer_eq, ReportUnit.offer_eq]
  rfl

theorem Part.activateRest_report (p : Part) (new : ActiveTable) (disturbed : Nat) :
    (p.activateRest new disturbed).report =
      { p.report.offer (.tableActivated new.crc disturbed) with
        cycleTimer :=
          if p.evaluator = .unconfigured then .running new.table.global.reportCycle.toNat
          else p.report.cycleTimer } := by
  rw [← ReportUnit.offer_cycleTimer, Part.activateRest]
  split_ifs <;> rfl

open Classical in
theorem Part.activate_marks (p : Part) {old new : Table} {added : SectionId → Prop}
    (means : ∀ i, added i ↔ (old.sectionCfg i).present = false ∧ (new.sectionCfg i).present = true) :
    ((List.finRange 24).filter fun i => decide (i ∉ p.report.queue) && sectionTouched old new i) =
      (List.finRange 24).filter fun i =>
        decide ((activationChanges old new i ∨ added i ∨
          (old.sectionCfg i).present = true ∧ (new.sectionCfg i).present = false) ∧ i ∉ p.report.queue) := by
  refine List.filter_congr fun i _ => ?_
  rw [Bool.eq_iff_iff, Bool.and_eq_true, sectionTouched_iff, decide_eq_true_iff, decide_eq_true_iff, means,
    and_comm]

open Classical in
/-- The report unit after an activation: the notices in order, then the marks and the report cycle. -/
theorem Part.activate_report (p : Part) (crc : Crc) {added : SectionId → Prop}
    (means : ∀ i, added i ↔
      (p.activeTable.sectionCfg i).present = false ∧ (p.tables.staging.sectionCfg i).present = true) :
    (p.activate crc).report =
      { (((List.finRange 4).flatMap fun l =>
            ((p.link l).queue.filter fun c =>
              decide (activationCancels p.activeTable p.tables.staging l c)).map fun c =>
                Notice.relayResult l c.target c.station c.code c.tag .cancelled) ++
            [Notice.tableActivated crc (sectionsDisturbed p.activeTable p.tables.staging)]).foldl
          ReportUnit.offer p.report with
        queue := p.report.queue ++ (List.finRange 24).filter fun i =>
          decide ((activationChanges p.activeTable p.tables.staging i ∨ added i ∨
            (p.activeTable.sectionCfg i).present = true ∧
              (p.tables.staging.sectionCfg i).present = false) ∧ i ∉ p.report.queue)
        cycleTimer :=
          if p.evaluator = .unconfigured then .running p.tables.staging.global.reportCycle.toNat
          else p.report.cycleTimer } := by
  have queue (notices : List Notice) (r : ReportUnit) : (notices.foldl ReportUnit.offer r).queue = r.queue :=
    foldl_keeps ReportUnit.queue _ (fun r n => (r.offer_keeps n).1) notices r
  have offered (r : ReportUnit) (marks : List SectionId) (n : Notice) :
      ({ r with queue := marks } : ReportUnit).offer n = { r.offer n with queue := marks } :=
    ReportUnit.foldl_offer_queue [n] r marks
  have relays (q : Part) (links : q.links = p.links) (report : q.report = p.report) :
      (q.activateRelays p.activeTable p.tables.staging).report =
        (p.cancelNotices p.activeTable p.tables.staging (List.finRange 4)).foldl ReportUnit.offer p.report := by
    rw [Part.activateRelays, Part.foldl_cancelRelays_report _ _ (List.nodup_finRange 4), report]
    simp only [Part.cancelNotices, Part.link, links]
  have links (q : Part) : (q.activateLinks p.activeTable p.tables.staging).report = q.report := by simp
  have cycle := p.activate_cycle crc
  rw [Part.activate, Part.activateRest_report] at cycle ⊢
  dsimp only at cycle
  rw [cycle, links, Part.activateSections_report, relays _ (by simp) (by simp), queue, offered,
    p.activate_marks means, ← Part.cancelNotices_eq, List.foldl_append]
  rfl

/-! ## The part and the request (R132, R133) -/

/-- An activation changes nothing but the records of the delta, the evaluator state and the active table. -/
theorem Part.activate_eq (p : Part) (crc : Crc) :
    p.activate crc = { p with
      heads := (p.activate crc).heads
      decoders := (p.activate crc).decoders
      sections := (p.activate crc).sections
      links := (p.activate crc).links
      report := (p.activate crc).report
      evaluator := if p.evaluator = .unconfigured then .halted else p.evaluator
      tables := { p.tables with active := some { table := p.tables.staging, crc := crc } } } := by
  have kept : (p.activate crc).pins = p.pins ∧ (p.activate crc).count = p.count ∧
      (p.activate crc).image = p.image := by simp [Part.activate]
  rw [← p.activate_evaluator crc, ← p.activate_tables crc]
  generalize p.activate crc = q at kept
  cases p
  cases q
  simp_all

section

variable {p : Part} {tag high low : Octet} {crc : Crc}

theorem tableActivateRequest_editing (editing : p.tables.stagingState = .editing) (body : List Octet) :
    tableActivateRequest body p = (p, refuse .notChecked) := by
  simp [tableActivateRequest, editing]

theorem tableActivateRequest_otherCrc (checked : p.tables.stagingState = .checked crc) (other : high ++ low ≠ crc) :
    tableActivateRequest [tag, high, low] p = (p, refuse .crcMismatch) := by
  simp only [tableActivateRequest, checked]
  exact if_neg other

theorem tableActivateRequest_activates (checked : p.tables.stagingState = .checked crc)
    (quoted : high ++ low = crc) :
    tableActivateRequest [tag, high, low] p =
      (p.activate crc,
        done (octets16 crc ++ [octetOf (sectionsDisturbed p.activeTable p.tables.staging)])) := by
  simp only [tableActivateRequest, checked]
  exact if_pos quoted

end

/-- Settles O41: the owner's answer by the staging state and the CRC quoted, and the activation record by
record. -/
theorem tableActivateAppliesTheDelta : Obligations.TableActivateAppliesTheDelta := by
  intro s tag high low room
  have activate {p : Part} {a : Answer}
      (answers : tableActivateRequest [tag, high, low] (s.toPart.setCountRx .wait) = (p, a))
      (count : p.count = (s.toPart.setCountRx .wait).count) :
      exec (.tableActivate [tag, high, low]) s = s.answeredAfter p tag 0x1E a.outcome a.items :=
    State.next_requestArrives room (by simp) rfl answers count
  refine ⟨fun editing => ?_, fun crc checked other => ?_, ?_⟩
  · exact activate (tableActivateRequest_editing (p := s.toPart.setCountRx .wait) editing _) rfl
  · exact activate (tableActivateRequest_otherCrc (p := s.toPart.setCountRx .wait) checked other) rfl
  · rintro crc old new added disturbed checked quoted rfl rfl means rfl
    have activated := (s.toPart.setCountRx .wait).activate_eq crc
    have ran := activate (tableActivateRequest_activates (p := s.toPart.setCountRx .wait) checked quoted)
      (by rw [activated])
    rw [← sectionsDisturbed_eq means]
    refine ⟨_, ran, fun h => ?_, fun h => ?_, fun i => ?_, fun l => ?_, ?_, ?_⟩
    · exact (s.toPart.setCountRx .wait).activate_clears_head crc h
    · exact (s.toPart.setCountRx .wait).activate_clears_decoder crc h
    · exact ((s.toPart.setCountRx .wait).activate_sec crc i).trans (SectionRec.activated_eq _ (means i))
    · exact ((s.toPart.setCountRx .wait).activate_link crc l).trans (LinkRec.activated_eq _ _ _ l)
    · exact (s.toPart.setCountRx .wait).activate_report crc means
    · rw [activated]
      rfl

end Sys2Proof.Machine
end

section
/-! SUPPORT. The capacities of the queues and buffers (R62, R145, R149, R153, R154): the events that add nothing
beyond them, and the three that add under a check of their own: a mirror, a relay command and a reply. -/

namespace Sys2Proof.Machine

/-! ## What adds nothing beyond a capacity -/

/-- The replies and the relay queues are no longer than before, the notice queue stays within its capacity, and
the report queue stays without a section twice. -/
structure Part.KeepsQueues (p q : Part) : Prop where
  replies : q.count.replies.length ≤ p.count.replies.length
  notices : p.report.notices.length ≤ 16 → q.report.notices.length ≤ 16
  reports : p.report.queue.Nodup → q.report.queue.Nodup
  relays  : ∀ l, (q.link l).queue.length ≤ (p.link l).queue.length

/-- No mirror joins the buffer either. -/
structure Part.KeepsBounds (p q : Part) : Prop extends p.KeepsQueues q where
  mirrors : q.report.mirrors.length ≤ p.report.mirrors.length

theorem Part.QueuesBounded.keeps {p q : Part} (bounded : p.QueuesBounded) (kept : p.KeepsQueues q)
    (mirrors : q.report.mirrors.length ≤ 4) : q.QueuesBounded where
  replies := kept.replies.trans bounded.replies
  notices := kept.notices bounded.notices
  mirrors := mirrors
  reports := kept.reports bounded.reports
  relays l := (kept.relays l).trans (bounded.relays l)

theorem Part.QueuesBounded.keepsBounds {p q : Part} (bounded : p.QueuesBounded) (kept : p.KeepsBounds q) :
    q.QueuesBounded :=
  bounded.keeps kept.toKeepsQueues (kept.mirrors.trans bounded.mirrors)

theorem Part.KeepsQueues.trans {p q r : Part} (first : p.KeepsQueues q) (second : q.KeepsQueues r) :
    p.KeepsQueues r where
  replies := second.replies.trans first.replies
  notices bounded := second.notices (first.notices bounded)
  reports bounded := second.reports (first.reports bounded)
  relays l := (second.relays l).trans (first.relays l)

namespace Part.KeepsBounds

variable {p q r : Part}

theorem refl (p : Part) : p.KeepsBounds p where
  replies := le_rfl
  notices := id
  reports := id
  relays _ := le_rfl
  mirrors := le_rfl

theorem trans (first : p.KeepsBounds q) (second : q.KeepsBounds r) : p.KeepsBounds r where
  toKeepsQueues := first.toKeepsQueues.trans second.toKeepsQueues
  mirrors := second.mirrors.trans first.mirrors

/-- An operation on other records. -/
theorem of_same (kept : p.KeepsBounds q) (replies : r.count.replies = q.count.replies) (report : r.report = q.report)
    (links : r.links = q.links) : p.KeepsBounds r := by
  refine kept.trans ⟨⟨replies ▸ le_rfl, report ▸ id, report ▸ id, fun l => ?_⟩, report ▸ le_rfl⟩
  rw [Part.link, Part.link, links]

/-! ### Writes of one record -/

theorem setReport (kept : p.KeepsBounds q) {u : ReportUnit}
    (notices : q.report.notices.length ≤ 16 → u.notices.length ≤ 16)
    (reports : q.report.queue.Nodup → u.queue.Nodup)
    (mirrors : u.mirrors.length ≤ q.report.mirrors.length) : p.KeepsBounds (q.setReport u) :=
  kept.trans ⟨⟨le_rfl, notices, reports, fun _ => le_rfl⟩, mirrors⟩

/-- A write that leaves the notices, the report queue and the mirrors. -/
theorem setFlags (kept : p.KeepsBounds q) {u : ReportUnit} (notices : u.notices = q.report.notices)
    (reports : u.queue = q.report.queue) (mirrors : u.mirrors = q.report.mirrors) :
    p.KeepsBounds (q.setReport u) :=
  kept.setReport (notices ▸ id) (reports ▸ id) (mirrors ▸ le_rfl)

theorem offer (kept : p.KeepsBounds q) (n : Notice) : p.KeepsBounds (q.offer n) :=
  kept.setReport (fun bounded => ReportUnit.offer_bounded bounded n) (by simp) (by simp)

theorem mark (kept : p.KeepsBounds q) (i : SectionId) : p.KeepsBounds (q.mark i) :=
  kept.setReport (by simp) (fun bounded => ReportUnit.mark_nodup bounded i) (by simp)

theorem setLink (kept : p.KeepsBounds q) {l : LinkId} {k : LinkRec}
    (shorter : k.queue.length ≤ (q.link l).queue.length) : p.KeepsBounds (q.setLink l k) := by
  refine kept.trans ⟨⟨le_rfl, id, id, fun m => ?_⟩, le_rfl⟩
  rw [Part.link_setLink_eq]
  split
  · rename_i own
    rwa [own]
  · exact le_rfl

theorem setSec (kept : p.KeepsBounds q) (i : SectionId) (s : SectionRec) : p.KeepsBounds (q.setSec i s) :=
  kept.of_same rfl rfl rfl

theorem setHead (kept : p.KeepsBounds q) (h : HeadId) (s : HeadRec) : p.KeepsBounds (q.setHead h s) :=
  kept.of_same rfl rfl rfl

theorem setDecoder (kept : p.KeepsBounds q) (h : HeadId) (d : DecoderRec) : p.KeepsBounds (q.setDecoder h d) :=
  kept.of_same rfl rfl rfl

theorem setEvaluator (kept : p.KeepsBounds q) (e : EvaluatorState) : p.KeepsBounds (q.setEvaluator e) :=
  kept.of_same rfl rfl rfl

/-! ### Sections, heads and relay queues -/

theorem disturb (kept : p.KeepsBounds q) (i : SectionId) (c : Cause) : p.KeepsBounds (q.disturb i c) :=
  (kept.setSec i _).mark i

theorem disturbUnlessDisturbed (kept : p.KeepsBounds q) (i : SectionId) (c : Cause) :
    p.KeepsBounds (q.disturbUnlessDisturbed i c) := by
  unfold Part.disturbUnlessDisturbed
  split
  · exact kept
  · exact kept.disturb i c

theorem failHead (kept : p.KeepsBounds q) (h : HeadId) (c : HeadCause) : p.KeepsBounds (q.failHead h c) := by
  have failed : p.KeepsBounds ((q.setHead h ((q.head h).fail c)).offerHeadState h) := (kept.setHead h _).offer _
  unfold Part.failHead
  dsimp only
  split
  · exact foldl_inv p.KeepsBounds _ (fun _ item kept => kept.disturbUnlessDisturbed item.1 _) _ _
      (failed.setDecoder h _)
  · exact failed

theorem wheelEvent (kept : p.KeepsBounds q) (h : HeadId) (d : Dir) : p.KeepsBounds (q.wheelEvent h d) := by
  unfold Part.wheelEvent
  split
  · refine foldl_inv p.KeepsBounds _ (fun q item kept => ?_) _ q kept
    unfold Part.applyWheel
    dsimp only
    split
    · exact (kept.setSec _ _).mark _
    · exact kept.setSec _ _
  · exact kept

theorem completeRelay (kept : p.KeepsBounds q) (l : LinkId) (result : RelayResult) :
    p.KeepsBounds (q.completeRelay l result) := by
  unfold Part.completeRelay
  split
  · exact kept.setLink le_rfl
  · rename_i queue
    exact (kept.setLink (by simp [queue])).offer _

theorem cancelRelays (kept : p.KeepsBounds q) (l : LinkId) (picked : RelayCommand → Bool) :
    p.KeepsBounds (q.cancelRelays l picked) := by
  have offered (cs : List RelayCommand) {q : Part} (kept : p.KeepsBounds q) :
      p.KeepsBounds (q.offerRelayResults l .cancelled cs) := by
    induction cs generalizing q with
    | nil => exact kept
    | cons c cs ih => exact ih (kept.offer _)
  exact offered _ (kept.setLink (List.length_filter_le _ _))

/-! ### The head links -/

theorem keptByTelegramSteps (p : Part) (h : HeadId) : KeptByTelegramSteps p.KeepsBounds h where
  setHead kept _ := kept.setHead h _
  setDecoder d kept := kept.setDecoder h d
  offer n kept := kept.offer n
  failHead c kept := kept.failHead h c
  wheelEvent d kept := kept.wheelEvent h d
  completeRelay l result kept := kept.completeRelay l result

theorem takeTelegram (kept : p.KeepsBounds q) (l : LinkId) (h : HeadId) (t : HeadTelegram) :
    p.KeepsBounds (q.takeTelegram l h t).1 :=
  (keptByTelegramSteps p h).takeTelegram l t kept

theorem linkLoss (kept : p.KeepsBounds q) (l : LinkId) : p.KeepsBounds (q.linkLoss l) := by
  have lose (q : Part) (h : HeadId) (kept : p.KeepsBounds q) : p.KeepsBounds (q.loseHead h) := by
    unfold Part.loseHead
    cases (q.head h).state with
    | acquiring | inService => exact kept.failHead h _
    | absent | failed => exact kept
  have searching : p.KeepsBounds (q.setLink l { (q.link l).toSearch with latch := true }) := kept.setLink le_rfl
  exact (foldl_inv p.KeepsBounds _ lose _ _ (searching.offer _)).cancelRelays l _

theorem withRx (kept : p.KeepsBounds q) (l : LinkId) (rx : Rx) :
    p.KeepsBounds (q.setLink l ((q.link l).withRx rx)) :=
  kept.setLink (by rw [(LinkRec.MayReceive.withRx (q.link l) rx).queue])

theorem badFrame (kept : p.KeepsBounds q) (l : LinkId) (kind : BadFrame) (rx : Rx) :
    p.KeepsBounds (q.badFrame l kind rx) := by
  have counted : p.KeepsBounds (q.setLink l { (q.link l).withRx rx with
      run := (q.link l).run + 1, counts := (q.link l).counts.raise kind }) :=
    kept.setLink (by rw [(LinkRec.MayReceive.withRx (q.link l) rx).queue])
  unfold Part.badFrame
  dsimp only
  split
  · exact counted.linkLoss l
  · exact counted

theorem linkCharTimeout (kept : p.KeepsBounds q) (l : LinkId) : p.KeepsBounds (q.linkCharTimeout l) := by
  unfold Part.linkCharTimeout
  split
  · exact kept.badFrame l _ _
  · exact kept
  · exact kept
  · exact kept.setLink le_rfl
  · exact kept

theorem linkQuiet (kept : p.KeepsBounds q) (l : LinkId) : p.KeepsBounds (q.linkQuiet l) := by
  have timedOut := kept.linkCharTimeout l
  unfold Part.linkQuiet
  dsimp only
  split
  · exact kept
  · split
    · exact timedOut.withRx l _
    · exact timedOut
    · exact timedOut

end Part.KeepsBounds

theorem Part.KeepsQueues.keptByLinkEvents (p : Part) : KeptByLinkEvents p.KeepsQueues where
  setLink kept may := kept.trans ((KeepsBounds.refl _).setLink (by rw [may.queue])).toKeepsQueues
  offer n kept := kept.trans ((KeepsBounds.refl _).offer n).toKeepsQueues
  setMirrors _ kept := ⟨kept.replies, kept.notices, kept.reports, kept.relays⟩
  linkLoss kept := kept.trans ((KeepsBounds.refl _).linkLoss _).toKeepsQueues
  takeTelegram t kept _ _ := kept.trans ((KeepsBounds.refl _).takeTelegram _ _ t).toKeepsQueues

/-! ## The mirror buffer (R60, R154) -/

section

variable {p : Part} {l : LinkId}

/-- A mirror joins where the buffer has room. -/
theorem Part.offerMirror_mirrors (bounded : p.report.mirrors.length ≤ 4) (l : LinkId) (octets : List Octet) :
    (p.offerMirror l octets).report.mirrors.length ≤ 4 := by
  unfold Part.offerMirror
  split
  · exact bounded
  · rename_i room
    have free : p.report.mirrors.length < 4 := Nat.not_le.1 fun full => room (decide_eq_true full)
    simpa using free

theorem Part.mappedTelegram_mirrors (bounded : p.report.mirrors.length ≤ 4) (l : LinkId) (h : HeadId)
    (t : HeadTelegram) (octets : List Octet) : (p.mappedTelegram l h t octets).report.mirrors.length ≤ 4 := by
  have taken := ((KeepsBounds.refl p).takeTelegram l h t).mirrors.trans bounded
  unfold Part.mappedTelegram
  dsimp only
  split_ifs
  · exact Part.offerMirror_mirrors (by simpa using taken) l octets
  · exact Part.offerMirror_mirrors (by simpa using taken) l octets
  · simpa using taken
  · simpa using taken

theorem Part.badFrame_mirrors (bounded : p.report.mirrors.length ≤ 4) (l : LinkId) (kind : BadFrame) (rx : Rx) :
    (p.badFrame l kind rx).report.mirrors.length ≤ 4 :=
  ((KeepsBounds.refl p).badFrame l kind rx).mirrors.trans bounded

theorem Part.lockedTelegram_mirrors (bounded : p.report.mirrors.length ≤ 4) (l : LinkId) (octets : List Octet) :
    (p.lockedTelegram l octets).report.mirrors.length ≤ 4 := by
  unfold Part.lockedTelegram
  split
  · exact Part.badFrame_mirrors bounded l _ _
  · split
    · simpa using bounded
    · exact Part.mappedTelegram_mirrors bounded l _ _ octets

theorem Part.searchOctet_mirrors (bounded : p.report.mirrors.length ≤ 4) (l : LinkId)
    (candidate : Option (Polarity × List Octet)) (o : Octet) :
    (p.searchOctet l candidate o).report.mirrors.length ≤ 4 := by
  unfold Part.searchOctet
  dsimp only
  split
  · split_ifs <;> simpa using bounded
  · split
    · simpa using bounded
    · simpa using bounded
    · simpa using bounded
    · exact Part.lockedTelegram_mirrors (by simpa using bounded) l _

theorem Part.lockedOctet_mirrors (bounded : p.report.mirrors.length ≤ 4) (l : LinkId) (rx : Rx) (o : Octet) :
    (p.lockedOctet l rx o).report.mirrors.length ≤ 4 := by
  unfold Part.lockedOctet
  dsimp only
  split
  · split
    · simpa using bounded
    · exact Part.badFrame_mirrors bounded l _ _
  · split <;> simpa using bounded
  · split
    · simpa using bounded
    · exact Part.badFrame_mirrors bounded l _ _
    · exact Part.badFrame_mirrors bounded l _ _
    · exact Part.lockedTelegram_mirrors (by simpa using bounded) l _

theorem Part.linkOctet_mirrors (bounded : p.report.mirrors.length ≤ 4) (l : LinkId) (o : Octet) :
    (p.linkOctet l o).report.mirrors.length ≤ 4 := by
  unfold Part.linkOctet
  dsimp only
  split
  · exact bounded
  · split
    · exact bounded
    · exact Part.searchOctet_mirrors bounded l _ o
    · exact Part.lockedOctet_mirrors bounded l _ _

end

/-! ## Expiries, relay telegrams, the image store and the count line's transmitter -/

namespace Part.KeepsBounds

variable {p q : Part}

theorem finishStore (kept : p.KeepsBounds q) (kind : StoreKind) (result : StoreResult) (image : Image)
    (state : ImageState) (crc : Option Crc) : p.KeepsBounds (q.finishStore kind result image state crc) := by
  have finished : p.KeepsBounds (q.setImage (ImageStore.finish image state)) := kept.of_same rfl rfl rfl
  exact finished.offer _

theorem expire (kept : p.KeepsBounds q) (t : TimerId) : p.KeepsBounds (q.expire t) := by
  cases t with
  | silence h =>
    show p.KeepsBounds (q.silenceExpiry h)
    unfold Part.silenceExpiry
    split
    · exact kept
    · cases (q.head h).state with
      | acquiring => exact (kept.setHead h _).offer _
      | inService => exact kept.failHead h _
      | failed | absent => exact kept.setHead h _
  | confirm i =>
    show p.KeepsBounds (q.confirmExpiry i)
    unfold Part.confirmExpiry
    dsimp only
    split
    · exact kept
    · split
      · exact (kept.setSec i _).mark i
      · exact kept.setSec i _
  | relay l =>
    show p.KeepsBounds (q.relayExpiry l)
    unfold Part.relayExpiry
    split
    · exact kept
    · exact kept.completeRelay l _
  | holdLimit =>
    show p.KeepsBounds q.holdExpiry
    unfold Part.holdExpiry ReportUnit.setHoldExpired
    split
    · exact kept
    · split <;> exact kept.setFlags rfl rfl rfl
  | reportCycle =>
    show p.KeepsBounds q.cycleExpiry
    unfold Part.cycleExpiry
    split
    · exact kept
    · exact (foldl_inv p.KeepsBounds _ (fun _ i kept => kept.mark i) _ q kept).setFlags rfl rfl rfl
  | store =>
    show p.KeepsBounds q.storeExpiry
    unfold Part.storeExpiry
    split
    · exact kept
    · split
      · exact kept.of_same rfl rfl rfl
      · exact kept.finishStore _ _ _ _ _

theorem writeCompletion (kept : p.KeepsBounds q) (readBack : Option Table) :
    p.KeepsBounds (q.writeCompletion readBack) := by
  unfold Part.writeCompletion Part.verify
  dsimp only
  split
  · exact kept
  · split <;> exact kept.finishStore _ _ _ _ _
  · split <;> exact kept.finishStore _ _ _ _ _
  · exact kept.finishStore _ _ _ _ _

theorem countDown (p : Part) : p.KeepsBounds p.countDown where
  replies := le_rfl
  notices := id
  reports := id
  relays l := by rw [Part.countDown_link]
  mirrors := le_rfl

theorem relayStart (kept : p.KeepsBounds q) (l : LinkId) : p.KeepsBounds (q.relayStart l) := by
  unfold Part.relayStart
  dsimp only
  split
  · split
    · rename_i queue
      exact kept.setLink (by simp [queue])
    · exact kept
  · exact kept

theorem relayEnd (kept : p.KeepsBounds q) (l : LinkId) : p.KeepsBounds (q.relayEnd l) := by
  have sent {q : Part} (kept : p.KeepsBounds q) : p.KeepsBounds (q.relaySent l) := by
    unfold Part.relaySent
    dsimp only
    split
    · exact kept
    · rename_i queue
      split
      · split
        · exact kept.setLink (by simp [queue])
        · exact kept.completeRelay l _
      · exact kept
  unfold Part.relayEnd
  dsimp only
  split
  · exact kept
  · exact sent (kept.setLink (by rw [(LinkRec.MayReceive.withRx (q.link l) .hunt).queue]))

/-- A sent reply leaves its buffer (R145). -/
theorem endTransmission (kept : p.KeepsBounds q) : p.KeepsBounds q.endTransmission := by
  unfold Part.endTransmission
  split
  · exact kept
  · have settled : p.KeepsBounds (q.setReport { q.report.settleFlags with transmitter := none }) :=
      kept.setFlags rfl rfl rfl
    dsimp only
    split
    · exact settled.trans ⟨⟨by simp [Part.dropReply], id, id, fun _ => le_rfl⟩, le_rfl⟩
    · exact settled

theorem transmit (kept : p.KeepsBounds q) (kind : UpKind) (octet : Octet) (body : List Octet) :
    p.KeepsBounds (q.transmit kind octet body) :=
  kept.setFlags rfl rfl rfl

/-- A report telegram takes entries off the front of the report queue (R151). -/
theorem sendReport (p : Part) : p.KeepsBounds p.sendReport := by
  have read := foldl_keeps (fun q : Part => (q.report, q.links, q.count)) (fun q i => q.readLatch i)
    (fun q i => rfl) (p.report.queue.take reportEntries) p
  simp only [Prod.mk.injEq] at read
  obtain ⟨report, links, count⟩ := read
  have latches : p.KeepsBounds ((p.report.queue.take reportEntries).foldl (fun q i => q.readLatch i) p) :=
    (refl p).of_same (by rw [count]) report links
  have dequeued := latches.setReport (u := { Part.report _ with queue := p.report.queue.drop reportEntries })
    id (fun once => (report ▸ once).sublist (List.drop_sublist _ _)) le_rfl
  exact dequeued.transmit _ _ _

theorem sendNotices (p : Part) : p.KeepsBounds p.sendNotices :=
  ((refl p).setReport (u := { p.report with notices := p.report.notices.drop noticeEntries })
    (fun bounded => by simp; omega) id le_rfl).transmit _ _ _

theorem choose (p : Part) : p.KeepsBounds p.choose := by
  unfold Part.choose Part.chooseUnheld
  split
  · exact (refl p).transmit _ _ _
  · split
    · exact refl p
    · split
      · exact sendReport p
      · split
        · exact sendNotices p
        · split
          · rename_i m rest mirrors
            have taken := (refl p).setReport (u := { p.report with mirrors := rest }) id id (by simp [mirrors])
            exact taken.transmit _ _ _
          · exact refl p

theorem afterEvent (p : Part) : p.KeepsBounds p.afterEvent := by
  unfold Part.afterEvent Part.unlessReset Part.startTransmission
  split
  · exact refl p
  · split
    · exact refl p
    · exact choose p

/-! ## Full reset and start-up -/

theorem startUpLoad (kept : p.KeepsBounds q) (body : ImageBody) : p.KeepsBounds (q.startUpLoad body) := by
  have loaded : p.KeepsBounds (q.setTables
      { active := some { table := body.table, crc := body.crc }, staging := body.table
        stagingState := .checked body.crc, lastCheck := .pass body.crc }) := kept.of_same rfl rfl rfl
  have disturbed := foldl_inv p.KeepsBounds (fun q i => q.disturb i .startUp)
    (fun _ i kept => kept.disturb i _) body.table.presentSections _ loaded
  have evaluated := disturbed.setEvaluator (if body.table.global.startMode = 1 then .running else .halted)
  have linked := foldl_inv p.KeepsBounds
    (fun q l => if body.table.global.enabled[l] then q.setLink l (q.link l).toSearch else q)
    (fun _ l kept => by
      split
      · exact kept.setLink le_rfl
      · exact kept) (List.finRange 4) _ evaluated
  exact linked.setFlags rfl rfl rfl

theorem startUp (p : Part) : p.KeepsBounds p.startUp := by
  have read (state : ImageState) : p.KeepsBounds (p.setImage { p.image with state := state }) :=
    (refl p).of_same rfl rfl rfl
  unfold Part.startUp
  dsimp only
  split
  · exact (read _).startUpLoad _
  · exact read _

/-! ## Requests -/

theorem haltRequest (p : Part) (body : List Octet) : p.KeepsBounds (haltRequest body p).1 := by
  unfold Machine.haltRequest
  split
  · exact foldl_inv p.KeepsBounds _ (fun _ i kept => kept.disturbUnlessDisturbed i _) _ _
      ((refl p).of_same rfl rfl rfl)
  · exact refl p

theorem sectionResetRequest (p : Part) (body : List Octet) : p.KeepsBounds (sectionResetRequest body p).1 := by
  rcases sectionResetRequest_cases body p with same | ⟨i, r, -, reset⟩
  · rw [same]
    exact refl p
  · rw [reset]
    exact ((refl p).setSec i r).mark i

theorem headReleaseRequest (p : Part) (body : List Octet) : p.KeepsBounds (headReleaseRequest body p).1 := by
  unfold Machine.headReleaseRequest
  split
  · exact refl p
  · split
    · exact refl p
    · split
      · exact refl p
      · exact ((refl p).setHead _ _).offer _

theorem linkQueryRequest (p : Part) (body : List Octet) : p.KeepsBounds (linkQueryRequest body p).1 := by
  unfold Machine.linkQueryRequest
  split
  · exact refl p
  · exact (refl p).setLink le_rfl

theorem proceedRequest (p : Part) (body : List Octet) : p.KeepsBounds (proceedRequest body p).1 := by
  unfold Machine.proceedRequest
  split
  · exact (refl p).setFlags rfl rfl rfl
  · exact refl p

theorem activateSections (kept : p.KeepsBounds q) (old new : Table) :
    p.KeepsBounds (q.activateSections old new) := by
  refine foldl_inv p.KeepsBounds _ (fun q i kept => ?_) _ q kept
  unfold Part.activateSection
  split
  · exact kept.disturb i _
  · exact (kept.setSec i _).disturb i _
  · exact (kept.setSec i _).mark i
  · exact kept
  · exact kept

theorem activateLinks (kept : p.KeepsBounds q) (old new : Table) : p.KeepsBounds (q.activateLinks old new) := by
  refine foldl_inv p.KeepsBounds _ (fun q l kept => ?_) _ q kept
  unfold Part.activateLink
  split_ifs
  · exact kept.setLink le_rfl
  · exact kept.setLink le_rfl
  · exact kept

theorem activateRest (kept : p.KeepsBounds q) (new : ActiveTable) (disturbed : Nat) :
    p.KeepsBounds (q.activateRest new disturbed) := by
  unfold Part.activateRest
  dsimp only
  split
  · have started : p.KeepsBounds (q.setReport { q.report with
        cycleTimer := .running new.table.global.reportCycle.toNat }) := kept.setFlags rfl rfl rfl
    exact (started.setEvaluator _).offer _
  · exact kept.offer _

theorem activate (p : Part) (crc : Crc) : p.KeepsBounds (p.activate crc) := by
  have cleared : p.KeepsBounds ((p.setTables { p.tables with
      active := some { table := p.tables.staging, crc := crc } }).activateHeads p.activeTable p.tables.staging) :=
    (refl p).of_same (by simp) (by simp) (by simp)
  have relays := foldl_inv p.KeepsBounds
    (fun q l => q.cancelRelays l (relayCancelled p.activeTable p.tables.staging l))
    (fun _ l kept => kept.cancelRelays l _) (List.finRange 4) _ cleared
  exact ((relays.activateSections _ _).activateLinks _ _).activateRest _ _

theorem tableActivateRequest (p : Part) (body : List Octet) : p.KeepsBounds (tableActivateRequest body p).1 := by
  unfold Machine.tableActivateRequest
  split
  · exact refl p
  · split
    · exact activate p _
    · exact refl p

end Part.KeepsBounds

namespace Part.QueuesBounded

variable {p : Part}

/-- A relay command joins a queue that has room (R62, R63). -/
theorem headRelayRequest (bounded : p.QueuesBounded) (body : List Octet) :
    (headRelayRequest body p).1.QueuesBounded := by
  unfold Machine.headRelayRequest
  dsimp only
  generalize (if field body 3 = 1 then RelayCode.restart else .healthRequest) = code
  split
  · exact bounded
  · rename_i a _
    split_ifs with unlocked forbidden full
    · exact bounded
    · exact bounded
    · exact bounded
    · refine ⟨bounded.replies, bounded.notices, bounded.mirrors, bounded.reports, fun l => ?_⟩
      rw [Part.link_setLink_eq]
      split
      · simpa [relayCapacity] using full
      · exact bounded.relays l

/-- A request of any owner keeps the bounds and places no reply: those on sections, links, heads, the table and
the hold by their own lemmas, HEAD RELAY by its check, every other because it touches no queue. -/
theorem request : ∀ owner ∈ requestOwners, ∀ body p, p.QueuesBounded →
    (owner body p).1.QueuesBounded ∧ (owner body p).1.count.replies.length ≤ p.count.replies.length := by
  have keeps {owner : List Octet → Part → Part × Answer} (kept : ∀ p body, p.KeepsBounds (owner body p).1) :
      ∀ body p, p.QueuesBounded →
        (owner body p).1.QueuesBounded ∧ (owner body p).1.count.replies.length ≤ p.count.replies.length :=
    fun body p bounded => ⟨bounded.keepsBounds (kept p body), (kept p body).replies⟩
  have plain {owner : List Octet → Part → Part × Answer}
      (same : ∀ body p, (owner body p).1.count.replies = p.count.replies ∧ (owner body p).1.report = p.report ∧
        (owner body p).1.links = p.links) (p : Part) (body : List Octet) : p.KeepsBounds (owner body p).1 := by
    obtain ⟨replies, report, links⟩ := same body p
    exact (KeepsBounds.refl p).of_same replies report links
  have relayReplies (body : List Octet) (p : Part) : (Machine.headRelayRequest body p).1.count = p.count := by
    simp only [Machine.headRelayRequest]
    (repeat' split) <;> rfl
  simp only [requestOwners, List.forall_mem_cons]
  refine ⟨keeps (plain ?_), keeps (plain ?_), keeps (plain ?_), keeps KeepsBounds.haltRequest,
    keeps KeepsBounds.sectionResetRequest, keeps (plain ?_), keeps KeepsBounds.headReleaseRequest,
    keeps (plain ?_), keeps KeepsBounds.linkQueryRequest,
    fun body p bounded => ⟨bounded.headRelayRequest body, by rw [relayReplies]⟩, keeps (plain ?_),
    keeps (plain ?_), keeps (plain ?_), keeps (plain ?_), keeps KeepsBounds.tableActivateRequest,
    keeps (plain ?_), keeps (plain ?_), keeps (plain ?_),
    keeps fun p _ => (KeepsBounds.refl p).setFlags rfl rfl rfl, keeps KeepsBounds.proceedRequest,
    keeps (plain ?_), List.forall_mem_nil _⟩
  all_goals
    intro body p
    simp only [statusQueryRequest, sectionQueryRequest, startRequest, headQueryRequest, headAdoptRequest,
      tableWriteRequest, tableReadRequest, tableCopyRequest, tableCheckRequest, storeRequest, commissionRequest,
      eraseStoreRequest, noOwner]
    (repeat' split) <;> simp [CountLine.cleared]

/-- A write of the count line's record that places no reply. -/
theorem setCount (bounded : p.QueuesBounded) {c : CountLine} (replies : c.replies.length ≤ 2) :
    (p.setCount c).QueuesBounded :=
  ⟨replies, bounded.notices, bounded.mirrors, bounded.reports, bounded.relays⟩

/-- A request that finds two replies waiting is discarded; any other has one reply, which finds room (R144,
R145). -/
theorem takeRequest (bounded : p.QueuesBounded) (kind : Octet) (body : List Octet) :
    (p.takeRequest kind body (ownerOf kind)).QueuesBounded := by
  have place {q : Part} (bounded : q.QueuesBounded) (room : q.count.replies.length < 2) (a : Answer) :
      (q.placeReply (field body 0) kind a).QueuesBounded :=
    bounded.setCount (by simpa using room)
  unfold Part.takeRequest
  split
  · exact bounded.setCount bounded.replies
  · rename_i room
    have free : p.count.replies.length < 2 := Nat.not_le.1 room
    split
    · obtain ⟨answered, replies⟩ := request _ (ownerOf_mem kind) body p bounded
      exact place answered (replies.trans_lt free) _
    · exact place bounded free _

theorem linkOctet (bounded : p.QueuesBounded) (l : LinkId) (o : Octet) : (p.linkOctet l o).QueuesBounded :=
  bounded.keeps ((KeepsQueues.keptByLinkEvents p).linkOctet l o (KeepsBounds.refl p).toKeepsQueues)
    (p.linkOctet_mirrors bounded.mirrors l o)

theorem fullReset (p : Part) : p.fullReset.QueuesBounded where
  replies := Nat.zero_le _
  notices := Nat.zero_le _
  mirrors := Nat.zero_le _
  reports := List.nodup_nil
  relays l := by simp [Part.link, Part.fullReset, Part.resetValues, LinkRec.reset]

theorem keptByEvents : KeptByEvents Part.QueuesBounded where
  setPins _ bounded := bounded.keepsBounds ((KeepsBounds.refl _).of_same rfl rfl rfl)
  fullReset _ := fullReset _
  startUp bounded := bounded.keepsBounds (.startUp _)
  linkOctet l o bounded := bounded.linkOctet l o
  linkCharTimeout l bounded := bounded.keepsBounds ((KeepsBounds.refl _).linkCharTimeout l)
  linkQuiet l bounded := bounded.keepsBounds ((KeepsBounds.refl _).linkQuiet l)
  setCountRx _ bounded := bounded.setCount bounded.replies
  countBadLength bounded := bounded.setCount bounded.replies
  countBadFrame _ bounded := bounded.setCount bounded.replies
  takeRequest kind body bounded := bounded.takeRequest kind body
  countDown bounded := bounded.keepsBounds (.countDown _)
  expire t bounded := bounded.keepsBounds ((KeepsBounds.refl _).expire t)
  relayStart l bounded := bounded.keepsBounds ((KeepsBounds.refl _).relayStart l)
  relayEnd l bounded := bounded.keepsBounds ((KeepsBounds.refl _).relayEnd l)
  writeCompletion readBack bounded := bounded.keepsBounds ((KeepsBounds.refl _).writeCompletion readBack)
  endTransmission bounded := bounded.keepsBounds (KeepsBounds.refl _).endTransmission
  afterEvent bounded := bounded.keepsBounds (.afterEvent _)

end Part.QueuesBounded

/-- Settles O49: every event adds nothing beyond a capacity, or adds under the check of its own queue. -/
theorem stepsKeepQueuesBounded : Obligations.StepsKeepQueuesBounded :=
  fun _ _ bounded ran => Part.QueuesBounded.keptByEvents.step bounded ran

end Sys2Proof.Machine
end

section
/-! SUPPORT. The intake of requests (R142 to R145, R166): the twenty commands as one, a request that is discarded,
one that is refused FORMAT, and a telegram of another address. -/

namespace Sys2Proof.Machine

/-! ## The request commands as one -/

/-- Each command of a request is the arrival of a request of its kind, for the owner of the kind (R144). -/
theorem exec_requestCommand : ∀ kc ∈ requestCommands, ∀ body s,
    exec (kc.2 body) s = s.next (s.toPart.unlessReset fun p => p.requestArrives kc.1 body (ownerOf kc.1)) := by
  simp only [requestCommands, List.forall_mem_cons]
  iterate 20 refine ⟨fun _ _ => rfl, ?_⟩
  exact List.forall_mem_nil _

theorem exec_requestOfUnknownKind (kind : Octet) (body : List Octet) (s : State) :
    exec (.requestOfUnknownKind kind body) s =
      s.next (s.toPart.unlessReset fun p => p.requestArrives kind body (ownerOf kind)) :=
  rfl

theorem exec_telegramAddressedElsewhere (address kind : Octet) (body : List Octet) (s : State) :
    exec (.telegramAddressedElsewhere address kind body) s =
      s.next (s.toPart.unlessReset fun p =>
        p.countTelegramArrives body fun q => q.judgeCountTelegram address kind body) :=
  rfl

/-! ## The length of a telegram (R50, R52) -/

section

variable {p : Part} {body : List Octet}

theorem bodyLengthFits_iff (body : List Octet) :
    bodyLengthFits body = true ↔ 1 ≤ body.length ∧ body.length ≤ 34 := by
  simp [bodyLengthFits]

theorem Part.countTelegramArrives_fits (nonempty : 1 ≤ body.length) (short : body.length ≤ 34)
    (f : Part → Part) : p.countTelegramArrives body f = f (p.setCountRx .wait) :=
  if_pos ((bodyLengthFits_iff body).2 ⟨nonempty, short⟩)

theorem Part.countTelegramArrives_badLength (bad : body.length = 0 ∨ 34 < body.length) (f : Part → Part) :
    p.countTelegramArrives body f = p.countBadLength :=
  if_neg fun fits => by
    have := (bodyLengthFits_iff body).1 fits
    omega

/-- A request that finds two replies waiting is discarded and counted (R145). -/
theorem Part.requestArrives_discarded (full : 2 ≤ p.count.replies.length) (nonempty : 1 ≤ body.length)
    (short : body.length ≤ 34) (kind : Octet) (owner : List Octet → Part → Part × Answer) :
    p.requestArrives kind body owner =
      p.setCount { p.count with rx := .wait, dropped := min (p.count.dropped + 1) 255 } := by
  have waiting : replyCapacity ≤ (p.setCountRx .wait).count.replies.length := full
  rw [Part.requestArrives, Part.countTelegramArrives_fits nonempty short, Part.takeRequest, if_pos waiting]
  rfl

end

/-- Settles O29: a request of any kind is discarded before its form is judged. -/
theorem requestsAreDiscardedWhileTwoRepliesWait : Obligations.RequestsAreDiscardedWhileTwoRepliesWait := by
  intro s body awake full nonempty short
  have discarded (kind : Octet) := Part.requestArrives_discarded full nonempty short kind (ownerOf kind)
  refine ⟨fun kc mem => ?_, fun kind => ?_⟩
  · rw [exec_requestCommand kc mem]
    exact State.next_of_taken awake (discarded kc.1)
  · exact State.next_of_taken awake (discarded kind)

/-! ## The form judgement (R143, R166) -/

theorem namesOneOf_three_iff (o : Octet) : namesOneOf 3 o = true ↔ o = 1 ∨ o = 2 ∨ o = 3 := by
  simp only [namesOneOf, Bool.and_eq_true, decide_eq_true_eq]
  bv_omega

/-- A request without fields. -/
theorem requestForm_tagAlone {kind : Octet}
    (named : kind ∈ [0x10#8, 0x12, 0x13, 0x1C, 0x1D, 0x1F, 0x20, 0x21, 0x22, 0x23]) (body : List Octet) :
    requestForm kind body = (body.length == 1) := by
  simp only [List.mem_cons, List.not_mem_nil, or_false] at named
  rcases named with rfl | rfl | rfl | rfl | rfl | rfl | rfl | rfl | rfl | rfl <;> rfl

/-- A request whose one field is a number. -/
theorem requestForm_oneNumber {kind : Octet} (named : kind ∈ [0x11#8, 0x15, 0x16, 0x17, 0x18])
    (body : List Octet) : requestForm kind body = (body.length == 2) := by
  simp only [List.mem_cons, List.not_mem_nil, or_false] at named
  rcases named with rfl | rfl | rfl | rfl | rfl <;> rfl

theorem requestForm_tableActivate (body : List Octet) : requestForm 0x1E body = (body.length == 3) := rfl

theorem requestForm_sectionReset_eq (body : List Octet) :
    requestForm 0x14#8 body = (body.length == 4 && namesOneOf 2 (field body 2)) := rfl

theorem requestForm_headRelay_eq (body : List Octet) :
    requestForm 0x19 body = (body.length == 4 && namesOneOf 2 (field body 1) && namesOneOf 2 (field body 3)) := rfl

theorem requestForm_tableRead_eq (body : List Octet) :
    requestForm 0x1B body = (body.length == 4 && namesOneOf 2 (field body 1) && namesOneOf 3 (field body 2)) := rfl

theorem requestForm_tableWrite_eq (body : List Octet) :
    requestForm 0x1A body = (decide (3 ≤ body.length) && namesOneOf 3 (field body 1)) := rfl

/-- A length that the kind does not have is malformed. -/
theorem requestForm_wrongLength {kind tag : Octet} {fields : List Octet}
    (wrong : kind ∈ [0x10#8, 0x12, 0x13, 0x1C, 0x1D, 0x1F, 0x20, 0x21, 0x22, 0x23] ∧ fields.length ≠ 0 ∨
      kind ∈ [0x11#8, 0x15, 0x16, 0x17, 0x18] ∧ fields.length ≠ 1 ∨
      kind = 0x1E ∧ fields.length ≠ 2 ∨
      kind ∈ [0x14#8, 0x19, 0x1B] ∧ fields.length ≠ 3 ∨
      kind = 0x1A ∧ fields.length < 2) : requestForm kind (tag :: fields) = false := by
  rcases wrong with ⟨named, length⟩ | ⟨named, length⟩ | ⟨rfl, length⟩ | ⟨named, length⟩ | ⟨rfl, length⟩
  · simpa [requestForm_tagAlone named] using length
  · simpa [requestForm_oneNumber named] using length
  · rw [requestForm_tableActivate]
    simpa using length
  · simp only [List.mem_cons, List.not_mem_nil, or_false] at named
    rcases named with rfl | rfl | rfl
    · rw [requestForm_sectionReset_eq]
      simp [length]
    · rw [requestForm_headRelay_eq]
      simp [length]
    · rw [requestForm_tableRead_eq]
      simp [length]
  · rw [requestForm_tableWrite_eq]
    simp [length]

/-- A well-formed request is of a kind of the catalogue. -/
theorem mem_requestCommands_of_requestForm {kind : Octet} {body : List Octet}
    (formed : requestForm kind body = true) : kind ∈ requestCommands.map Prod.fst := by
  unfold requestForm at formed
  split_ifs at formed with oneNumber reset relay write read activate tagAlone
  · rcases oneNumber with rfl | rfl | rfl | rfl | rfl <;> decide
  · subst reset
    decide
  · subst relay
    decide
  · subst write
    decide
  · subst read
    decide
  · subst activate
    decide
  · rcases tagAlone with rfl | rfl | rfl | rfl | rfl | rfl | rfl | rfl | rfl | rfl <;> decide

theorem requestForm_unknownKind {kind : Octet} (unknown : ∀ kc ∈ requestCommands, kc.1 ≠ kind)
    (body : List Octet) : requestForm kind body = false := by
  refine Bool.eq_false_iff.2 fun formed => ?_
  obtain ⟨kc, mem, named⟩ := List.mem_map.1 (mem_requestCommands_of_requestForm formed)
  exact unknown kc mem named

/-- A malformed request that finds room is refused FORMAT, and no owner takes it (R143). -/
theorem State.next_requestArrives_malformed {s : State} (room : s.hasRoom) {kind tag : Octet}
    {fields : List Octet} (fits : fields.length ≤ 33) (malformed : requestForm kind (tag :: fields) = false)
    (owner : List Octet → Part → Part × Answer) :
    s.next (s.toPart.unlessReset fun p => p.requestArrives kind (tag :: fields) owner) =
      s.refusedWith tag kind .format [] := by
  obtain ⟨awake, free⟩ := room
  have taken : ¬ replyCapacity ≤ (s.toPart.setCountRx .wait).count.replies.length := Nat.not_le.2 free
  refine State.next_of_taken awake ?_
  rw [Part.requestArrives, Part.countTelegramArrives_fits (by simp) (by simpa using Nat.succ_le_succ fits),
    Part.takeRequest, if_neg taken, if_neg (by simp [malformed])]
  rfl

/-- Settles O30: each clause gives a body that the form judgement refuses. -/
theorem malformedRequestsAreRefusedFormat : Obligations.MalformedRequestsAreRefusedFormat := by
  intro s tag fields room fits
  have refused {kind : Octet} {rest : List Octet} (short : rest.length ≤ 33)
      (malformed : requestForm kind (tag :: rest) = false) :=
    State.next_requestArrives_malformed room short malformed (ownerOf kind)
  refine ⟨fun kc mem wrong => ?_, fun a mode b first second => ?_, fun form a code other => ?_,
    fun copy kind a other => ?_, fun kind rest eq filled first second third => ?_, fun kind unknown => ?_⟩
  · rw [exec_requestCommand kc mem]
    exact refused fits (requestForm_wrongLength wrong)
  · refine refused (by simp) ((requestForm_sectionReset_eq _).trans ?_)
    have unnamed := mt (namesOneOf_two_iff mode).1 (not_or.2 ⟨first, second⟩)
    simpa [field] using unnamed
  · refine refused (by simp) ((requestForm_headRelay_eq _).trans ?_)
    have unnamed : ¬ (namesOneOf 2 form = true ∧ namesOneOf 2 code = true) := by
      simp only [namesOneOf_two_iff]
      tauto
    simpa [field] using unnamed
  · refine refused (by simp) ((requestForm_tableRead_eq _).trans ?_)
    have unnamed : ¬ (namesOneOf 2 copy = true ∧ namesOneOf 3 kind = true) := by
      simp only [namesOneOf_two_iff, namesOneOf_three_iff]
      tauto
    simpa [field] using unnamed
  · refine refused fits ((requestForm_tableWrite_eq _).trans ?_)
    have unnamed := mt (namesOneOf_three_iff kind).1 (not_or.2 ⟨first, not_or.2 ⟨second, third⟩⟩)
    simp [eq, field, unnamed]
  · exact refused fits (requestForm_unknownKind unknown _)

/-! ## The address of a telegram (R142) -/

/-- Settles O31: a telegram of another address is judged no further, one of the part's own is the request of its
kind, and a body that no telegram carries is a LENGTH bad frame. -/
theorem telegramsAddressedElsewhere : Obligations.TelegramsAddressedElsewhere := by
  intro s address kind body awake
  refine ⟨fun nonempty short => ⟨fun other => ?_, fun own => ?_⟩, fun bad kc mem => ?_⟩
  · have ignored : s.toPart.countTelegramArrives body (fun q => q.judgeCountTelegram address kind body) =
        s.toPart.setCountRx .wait := by
      rw [Part.countTelegramArrives_fits nonempty short]
      exact if_neg other
    exact State.next_of_taken awake ignored
  · have request : exec (.telegramAddressedElsewhere address kind body) s =
        exec (.requestOfUnknownKind kind body) s := by
      have judged : s.toPart.countTelegramArrives body (fun q => q.judgeCountTelegram address kind body) =
          s.toPart.requestArrives kind body (ownerOf kind) := by
        rw [Part.requestArrives, Part.countTelegramArrives_fits nonempty short,
          Part.countTelegramArrives_fits nonempty short]
        exact if_pos own
      rw [exec_telegramAddressedElsewhere, exec_requestOfUnknownKind, Part.unlessReset_awake awake,
        Part.unlessReset_awake awake, judged]
    refine ⟨request, ?_⟩
    rintro kc mem rfl
    rw [request, exec_requestCommand kc mem, exec_requestOfUnknownKind]
  · rw [exec_requestCommand kc mem]
    exact State.next_of_taken awake (Part.countTelegramArrives_badLength bad _)

/-! ## STATUS QUERY and LINK QUERY (R148, R59) -/

section

variable {body : List Octet}

theorem linkQueryRequest_outOfRange (named : linkOf (field body 1) = none) (p : Part) :
    linkQueryRequest body p = (p, refuse .range) := by
  simp [linkQueryRequest, named]

/-- The items of LINK QUERY (R59, R166). -/
def Part.linkItems (p : Part) (l : LinkId) : List Octet :=
  [codeLinkState (p.link l).state, codePolarity (p.link l).polarity, octetOf (p.link l).run] ++
    optional 1 (p.tables.active.map fun a => [(a.table.global.threshold[l]).setWidth 8]) ++
    twoOctets (p.link l).counts.syncMiss ++ twoOctets (p.link l).counts.length ++
    twoOctets (p.link l).counts.charTimeout ++ twoOctets (p.link l).counts.crc ++
    twoOctets (p.link l).counts.format ++ twoOctets (p.link l).strays ++ twoOctets (p.link l).repeats ++
    twoOctets (p.link l).mirrorsDropped ++
    [codeFlag (p.link l).latch, octetOf (p.link l).queue.length, (p.link l).tag.setWidth 8]

theorem linkQueryRequest_named {l : LinkId} (named : linkOf (field body 1) = some l) (p : Part) :
    linkQueryRequest body p = (p.setLink l (p.link l).cleared, done (p.linkItems l)) := by
  simp [linkQueryRequest, named, Part.linkItems]

/-- STATUS QUERY clears counts of the count line's own record, beside the reply that joins it (R148). -/
theorem Part.requestArrives_statusQuery {p : Part} (free : p.count.replies.length < 2) (tag : Octet) :
    p.requestArrives kindStatusQuery [tag] statusQueryRequest =
      (p.setCount { p.count.cleared with rx := .wait }).placeReply tag kindStatusQuery
        (statusQueryRequest [tag] p).2 := by
  have room : ¬ replyCapacity ≤ (p.setCountRx .wait).count.replies.length := Nat.not_le.2 free
  have formed : requestForm kindStatusQuery [tag] = true := rfl
  rw [Part.requestArrives, Part.countTelegramArrives_fits (by simp) (by simp), Part.takeRequest, if_neg room,
    if_pos formed]
  rfl

end

/-- Settles O32: each owner's answer over the part as it stands, and the counts that it clears. -/
theorem queriesThatClear : Obligations.QueriesThatClear := by
  intro s tag room
  have linkQuery {number : Octet} {p : Part} {a : Answer}
      (answers : linkQueryRequest [tag, number] (s.toPart.setCountRx .wait) = (p, a))
      (count : p.count = (s.toPart.setCountRx .wait).count) :
      exec (.linkQuery [tag, number]) s = s.answeredAfter p tag 0x18 a.outcome a.items :=
    State.next_requestArrives room (by simp) rfl answers count
  refine ⟨?_, fun l => ?_, fun number above => ?_⟩
  · obtain ⟨awake, free⟩ := room
    refine (State.next_of_taken awake (Part.requestArrives_statusQuery free tag)).trans ?_
    simp only [statusQueryRequest, Part.activeCrc, Option.map_map]
    rfl
  · have named : linkOf (field [tag, BitVec.ofNat 8 l.val] 1) = some l :=
      (linkOf_eq_some_iff _ l).2 (toNat_octet_of_fin (n := 4) (by omega) l)
    exact linkQuery (linkQueryRequest_named named _) rfl
  · have named : linkOf (field [tag, number] 1) = none := linkOf_eq_none above
    exact linkQuery (linkQueryRequest_outOfRange named _) rfl

end Sys2Proof.Machine
end

section
/-! SUPPORT. The straps and the last octet of a telegram (R142, R145, R152, R163), and the state right after reset. -/

namespace Sys2Proof.Machine

/-! ## The last octet of a telegram (R145, R152) -/

theorem Part.endTransmission_idle {p : Part} (idle : p.report.transmitter = none) : p.endTransmission = p := by
  simp [Part.endTransmission, idle]

theorem Part.endTransmission_sending {p : Part} {t : UpTelegram} (sending : p.report.transmitter = some t) :
    p.endTransmission = { p with
      count := { p.count with
        replies := if t.kind = .reply then p.count.replies.tail else p.count.replies }
      report := { p.report with
        transmitter := none
        overrun := if t.notedOverrun then p.report.overrunAgain else p.report.overrun
        overrunAgain := if t.notedOverrun then false else p.report.overrunAgain
        holdExpired := if t.notedHoldExpired then p.report.holdExpiredAgain else p.report.holdExpired
        holdExpiredAgain := if t.notedHoldExpired then false else p.report.holdExpiredAgain } } := by
  simp only [Part.endTransmission, sending, ReportUnit.settleFlags, ReportUnit.overrunNoted,
    ReportUnit.holdExpiredNoted]
  by_cases reply : t.kind = .reply
  · rw [if_pos reply, if_pos reply]
    rfl
  · rw [if_neg reply, if_neg reply]
    rfl

/-- Settles O46: the part that the last octet leaves starts a transmission as TRANSMISSION_START lets it. -/
theorem transmissionEnds : Obligations.TransmissionEnds := by
  intro s awake
  refine ⟨fun idle => State.next_of_taken awake (Part.endTransmission_idle idle), ?_⟩
  rintro t settled sending rfl
  exact ⟨State.next_of_taken awake (Part.endTransmission_sending sending), _, rfl⟩

/-! ## The address straps (R142, R163) -/

/-- Settles O8: the three cases of a strap change, by the address given and by whether the part is held. -/
theorem addressStrapChanges : Obligations.AddressStrapChanges := by
  intro s address
  have changed : exec (.addressStrapChange address) s = s.next (s.toPart.changeAddress address) := rfl
  refine ⟨fun nonzero awake => ?_, ?_, fun nonzero held => ?_⟩
  · rw [changed, Part.changeAddress, if_neg nonzero, if_neg (Bool.eq_false_iff.1 awake)]
    rfl
  · rintro rfl
    rw [changed, Part.changeAddress, if_pos rfl]
    rfl
  · have ended : exec (.fullResetEnd (.strapReturned address)) s =
        s.next (if s.toPart.inReset then (s.toPart.setPins { s.pins with address := address }).leaveReset
          else s.toPart) := rfl
    rw [changed, ended, Part.changeAddress, if_neg nonzero, if_pos held, if_pos held]

/-! ## The state right after reset (R163; log 1) -/

theorem State.reset_tablesSound : State.reset.toPart.TablesSound where
  staging := nofun
  active := nofun
  stored := ⟨by rintro (⟨⟨⟩⟩ | ⟨⟨⟩⟩), by rintro (⟨⟨⟩⟩ | ⟨⟨⟩⟩), nofun, nofun⟩

theorem State.reset_crcsSound : State.reset.toPart.CrcsSound where
  staging := nofun
  active := nofun
  storing := nofun
  commissioned := nofun
  known := by rintro (⟨⟨⟩⟩ | ⟨⟨⟩⟩)
  valid := nofun
  marked := nofun

/-- Settles O58: the state is its own full reset, so what a full reset brings about holds of it; beside that the laws
of the image, which was never written, and an idle transmitter with nothing to start. -/
theorem resetStateIsSound : Obligations.ResetStateIsSound := by
  obtain ⟨sides, rest⟩ := (Part.decodersSound_iff _).1 (Part.DecodersSound.fullReset State.reset.toPart)
  have halt := Part.HaltSound.fullReset State.reset.toPart
  exact ⟨Part.QueuesBounded.fullReset State.reset.toPart, sides, rest, Part.TimersSound.fullReset State.reset.toPart,
    Part.RelaysSound.fullReset State.reset.toPart, halt.halted, halt.configured,
    (Part.ServiceSound.fullReset State.reset.toPart).boundaries, (Part.WheelsSound.fullReset State.reset.toPart).counts,
    (Part.LocksSound.fullReset State.reset.toPart).heads, State.reset_tablesSound, State.reset_crcsSound, rfl, rfl⟩

end Sys2Proof.Machine
end

section
/-! SUPPORT. A change of the rate strap (R142): no operation of a bad frame reads the pins, and one below the
threshold changes the record of its link alone. -/

namespace Sys2Proof.Machine

/-! ## The pins beside a bad frame -/

section

variable (p : Part) (pins : Pins)

theorem Part.setPins_disturbUnlessDisturbed (i : SectionId) (c : Cause) :
    (p.setPins pins).disturbUnlessDisturbed i c = (p.disturbUnlessDisturbed i c).setPins pins := by
  unfold Part.disturbUnlessDisturbed
  rw [Part.setPins_sec]
  split <;> rfl

theorem Part.setPins_outOfService (h : HeadId) (c : HeadCause) :
    (p.setPins pins).outOfService h c = (p.outOfService h c).setPins pins :=
  List.foldl_hom (Part.setPins · pins) fun q item => q.setPins_disturbUnlessDisturbed pins item.1 _

theorem Part.setPins_failHead (h : HeadId) (c : HeadCause) :
    (p.setPins pins).failHead h c = (p.failHead h c).setPins pins := by
  by_cases service : (p.head h).state = .inService
  · rw [Part.failHead_of_inService service, Part.failHead_of_inService (p := p.setPins pins) service,
      ← Part.setPins_outOfService]
    rfl
  · rw [Part.failHead_of_out service, Part.failHead_of_out (p := p.setPins pins) service]
    rfl

theorem Part.setPins_loseHead (h : HeadId) : (p.setPins pins).loseHead h = (p.loseHead h).setPins pins := by
  unfold Part.loseHead
  rw [Part.setPins_head]
  cases (p.head h).state with
  | acquiring | inService => exact p.setPins_failHead pins h .linkLost
  | absent | failed => rfl

theorem Part.setPins_offerRelayResults (l : LinkId) (r : RelayResult) (cs : List RelayCommand) :
    (p.setPins pins).offerRelayResults l r cs = (p.offerRelayResults l r cs).setPins pins := by
  induction cs generalizing p with
  | nil => rfl
  | cons c cs ih => exact ih (p.offer (relayNotice l c r))

theorem Part.setPins_cancelRelays (l : LinkId) (picked : RelayCommand → Bool) :
    (p.setPins pins).cancelRelays l picked = (p.cancelRelays l picked).setPins pins := by
  unfold Part.cancelRelays
  exact Part.setPins_offerRelayResults (p.setLink l _) pins l .cancelled ((p.link l).queue.filter picked)

theorem Part.setPins_linkLoss (l : LinkId) : (p.setPins pins).linkLoss l = (p.linkLoss l).setPins pins := by
  have heads (q : Part) : (q.setPins pins).loseHeads l = (q.loseHeads l).setPins pins :=
    List.foldl_hom (Part.setPins · pins) fun r h => r.setPins_loseHead pins h
  rw [Part.linkLoss, Part.linkLoss, ← Part.setPins_cancelRelays, ← heads]
  rfl

theorem Part.setPins_badFrame (l : LinkId) (kind : BadFrame) (rx : Rx) :
    (p.setPins pins).badFrame l kind rx = (p.badFrame l kind rx).setPins pins := by
  by_cases below : (p.link l).run + 1 < p.threshold l
  · rw [Part.badFrame_below below, Part.badFrame_below (p := p.setPins pins) below]
    rfl
  · rw [Part.badFrame_above (Nat.not_lt.1 below), Part.badFrame_above (p := p.setPins pins) (Nat.not_lt.1 below),
      ← Part.setPins_linkLoss]
    rfl

theorem Part.setPins_linkCharTimeout (l : LinkId) :
    (p.setPins pins).linkCharTimeout l = (p.linkCharTimeout l).setPins pins := by
  unfold Part.linkCharTimeout
  rw [Part.setPins_link]
  cases (p.link l).mode with
  | off | search => rfl
  | locked polarity rx =>
    cases rx with
    | wait | hunt => rfl
    | frame octets => exact p.setPins_badFrame pins l .charTimeout .hunt

end

/-! ## The character waits that a rate change ends (R52, R55, R142) -/

/-- The head links, in ascending number. -/
def Part.linksTimedOut (p : Part) : Part := (List.finRange 4).foldl Part.linkCharTimeout p

/-- The count line's record after its character wait. -/
def CountLine.timedOut (c : CountLine) : CountLine :=
  match c.rx with
  | .frame _ => { c with rx := .hunt, counts := c.counts.raiseCharTimeout }
  | .wait => c
  | .hunt => c

theorem Part.countCharTimeout_eq (p : Part) : p.countCharTimeout = p.setCount p.count.timedOut := by
  unfold Part.countCharTimeout CountLine.timedOut
  cases p.count.rx <;> rfl

theorem Part.linksTimedOut_count (p : Part) : p.linksTimedOut.count = p.count :=
  foldl_keeps Part.count _ (fun q l => by simp) _ p

theorem Part.setPins_rateChange (p : Part) (pins : Pins) :
    (p.setPins pins).rateChange = (p.linksTimedOut.setPins pins).setCount p.count.timedOut := by
  have links : (List.finRange 4).foldl Part.linkCharTimeout (p.setPins pins) = p.linksTimedOut.setPins pins :=
    List.foldl_hom (Part.setPins · pins) fun q l => q.setPins_linkCharTimeout pins l
  rw [Part.rateChange, links, Part.countCharTimeout_eq, Part.setPins_count, p.linksTimedOut_count]

/-- A head link's record after its character wait, below the threshold (R52, R55, R57). -/
def LinkRec.timedOut (k : LinkRec) : LinkRec :=
  match k.mode with
  | .locked polarity (.frame _) => k.afterBadFrame polarity (k.counts.raise .charTimeout)
  | .search _ => { k with mode := .search none }
  | _ => k

/-- A telegram in FRAME on the link does not reach the threshold as a bad frame. -/
def Part.FrameBelow (p : Part) (l : LinkId) : Prop :=
  ∀ polarity octets, (p.link l).mode = .locked polarity (.frame octets) → (p.link l).run + 1 < p.threshold l

theorem Part.linkCharTimeout_below {p : Part} {l : LinkId} (below : p.FrameBelow l) :
    p.linkCharTimeout l = p.setLink l (p.link l).timedOut := by
  unfold Part.linkCharTimeout LinkRec.timedOut
  cases mode : (p.link l).mode with
  | off => exact (p.setLink_link l).symm
  | search => rfl
  | locked polarity rx =>
    cases rx with
    | wait | hunt => exact (p.setLink_link l).symm
    | frame octets => exact Part.badFrame_counted mode (below polarity octets mode) .charTimeout

/-- Below their thresholds the links are changed one by one, each by its own record. -/
theorem Part.foldl_linkCharTimeout {ls : List LinkId} (distinct : ls.Nodup) {p : Part}
    (below : ∀ l ∈ ls, p.FrameBelow l) :
    ls.foldl Part.linkCharTimeout p = ls.foldl (fun q l => q.setLink l (q.link l).timedOut) p := by
  induction ls generalizing p with
  | nil => rfl
  | cons l ls ih =>
    obtain ⟨fresh, distinct⟩ := List.nodup_cons.1 distinct
    obtain ⟨first, rest⟩ := List.forall_mem_cons.1 below
    rw [List.foldl_cons, List.foldl_cons, Part.linkCharTimeout_below first]
    refine ih distinct fun m mem => ?_
    have other : m ≠ l := fun same => fresh (same ▸ mem)
    unfold Part.FrameBelow
    rw [Part.link_setLink_ne _ _ other, Part.setLink_threshold]
    exact rest m mem

section

variable {p : Part} (below : ∀ l, p.FrameBelow l)

include below

theorem Part.linksTimedOut_link (l : LinkId) : p.linksTimedOut.link l = (p.link l).timedOut := by
  rw [Part.linksTimedOut, Part.foldl_linkCharTimeout (List.nodup_finRange 4) fun l _ => below l,
    Part.foldl_link _ (fun _ k => k.timedOut) (fun q l m => q.link_setLink_eq m l _) _ (List.nodup_finRange 4),
    if_pos (List.mem_finRange l)]

theorem Part.linksTimedOut_eq : p.linksTimedOut = { p with links := p.linksTimedOut.links } := by
  rw [Part.linksTimedOut, Part.foldl_linkCharTimeout (List.nodup_finRange 4) fun l _ => below l]
  refine foldl_inv (fun q : Part => q = { p with links := q.links }) _ (fun q l same => ?_) _ p rfl
  exact congrArg (fun r : Part => r.setLink l (q.link l).timedOut) same

end

/-- Settles O9: the lines' character waits in their order, which do not look at the pins; and below the thresholds
each link by its own record. -/
theorem rateStrapChanges : Obligations.RateStrapChanges := by
  have changed {s : State} {rate : Rate} (awake : s.awake) (other : s.pins.rate ≠ rate) :
      exec (.rateStrapChange rate) s = .next (State.afterEvent { s with
        toPart := (s.linksTimedOut.setPins { s.pins with rate := rate }).setCount s.count.timedOut }) := by
    have ran : exec (.rateStrapChange rate) s =
        s.next (if s.pins.rate = rate then s.toPart
          else (s.toPart.setPins { s.pins with rate := rate }).unlessReset Part.rateChange) := rfl
    have pinned : (s.toPart.setPins { s.pins with rate := rate }).inReset = false := awake
    rw [ran, if_neg other, Part.unlessReset_awake pinned, Part.setPins_rateChange]
    rfl
  refine ⟨fun s => ?_, fun s rate ended awake other means => ?_, fun s rate awake other below => ?_⟩
  · show s.next (if s.pins.rate = s.pins.rate then s.toPart else _) = _
    rw [if_pos rfl]
    rfl
  · have timedOut : ended = s.linksTimedOut := by
      refine means.trans (List.foldl_ext _ _ _ fun p l _ => ?_)
      unfold Part.linkCharTimeout
      cases (p.link l).mode with
      | off | search => rfl
      | locked polarity rx => cases rx <;> rfl
    rw [changed awake other, timedOut]
    unfold CountLine.timedOut
    cases s.count.rx <;> rfl
  · refine ⟨_, changed awake other, fun l => ?_, ?_⟩
    · refine (Part.linksTimedOut_link below l).trans ?_
      unfold LinkRec.timedOut
      cases (s.link l).mode with
      | off | search => rfl
      | locked polarity rx => cases rx <;> rfl
    · rw [Part.linksTimedOut_eq below]
      unfold CountLine.timedOut
      cases s.count.rx <;> rfl

end Sys2Proof.Machine
end

section
/-! SUPPORT. The report unit's own queues (R149, R150, R153), the hold of the count line (R156, R157) and the
mirror buffer (R154). -/

namespace Sys2Proof.Machine

/-! ## Flags with a set-again mark (R152) -/

section

variable {r : ReportUnit}

theorem ReportUnit.overrunNoted_iff (r : ReportUnit) :
    r.overrunNoted = true ↔ ∃ t, r.transmitter = some t ∧ t.notedOverrun = true := by
  unfold ReportUnit.overrunNoted
  cases r.transmitter <;> simp

theorem ReportUnit.holdExpiredNoted_iff (r : ReportUnit) :
    r.holdExpiredNoted = true ↔ ∃ t, r.transmitter = some t ∧ t.notedHoldExpired = true := by
  unfold ReportUnit.holdExpiredNoted
  cases r.transmitter <;> simp

theorem ReportUnit.setOverrun_carried (carried : ∃ t, r.transmitter = some t ∧ t.notedOverrun = true) :
    r.setOverrun = { r with overrunAgain := true } :=
  if_pos (r.overrunNoted_iff.2 carried)

theorem ReportUnit.setOverrun_free (free : ∀ t, r.transmitter = some t → t.notedOverrun = false) :
    r.setOverrun = { r with overrun := true } :=
  if_neg fun noted => by
    obtain ⟨t, sending, carried⟩ := r.overrunNoted_iff.1 noted
    exact absurd carried (by simp [free t sending])

theorem ReportUnit.setHoldExpired_carried (carried : ∃ t, r.transmitter = some t ∧ t.notedHoldExpired = true) :
    r.setHoldExpired = { r with holdExpiredAgain := true } :=
  if_pos (r.holdExpiredNoted_iff.2 carried)

theorem ReportUnit.setHoldExpired_free (free : ∀ t, r.transmitter = some t → t.notedHoldExpired = false) :
    r.setHoldExpired = { r with holdExpired := true } :=
  if_neg fun noted => by
    obtain ⟨t, sending, carried⟩ := r.holdExpiredNoted_iff.1 noted
    exact absurd carried (by simp [free t sending])

end

/-! ## The report cycle (R150) -/

section

variable {p : Part}

theorem Part.cycleExpiry_stopped (stopped : p.report.cycleTimer = .stopped) : p.cycleExpiry = p :=
  Part.expire_of_stopped (t := .reportCycle) stopped

theorem Part.cycleExpiry_running (running : p.report.cycleTimer ≠ .stopped) :
    p.cycleExpiry = { p with
      report := { p.report with
        queue := p.report.queue ++ (List.finRange 24).filter fun i =>
          (p.sectionCfg i).present && decide (i ∉ p.report.queue)
        cycleTimer := .running p.activeTable.global.reportCycle.toNat } } := by
  have report := Part.foldl_marks Part.mark _ p.activeTable.presentSections_nodup p fun _ _ _ => rfl
  have others : p.activeTable.presentSections.foldl Part.mark p =
      p.setReport (p.activeTable.presentSections.foldl Part.mark p).report :=
    foldl_inv (fun q : Part => q = p.setReport q.report) _
      (fun q i same => (congrArg (fun r : Part => r.mark i) same :)) _ p rfl
  unfold Part.cycleExpiry
  cases timer : p.report.cycleTimer with
  | stopped => exact absurd timer running
  | running left =>
    dsimp only
    rw [others, report, Table.presentSections, List.filter_filter]
    simp only [Bool.and_comm]
    rfl

/-! ## HOLD, PROCEED and the hold limit (R156, R157) -/

theorem Part.holdExpiry_stopped (stopped : p.report.holdTimer = .stopped) : p.holdExpiry = p :=
  Part.expire_of_stopped (t := .holdLimit) stopped

theorem Part.holdExpiry_running (running : p.report.holdTimer ≠ .stopped) :
    p.holdExpiry = p.setReport { p.report.setHoldExpired with held := false, holdTimer := .stopped } := by
  unfold Part.holdExpiry
  cases timer : p.report.holdTimer with
  | stopped => exact absurd timer running
  | running left => rfl

/-- HOLD takes the limit in force, 5 000 ms where there is no table (R156). -/
theorem holdRequest_eq {limit : Nat}
    (inForce : p.tables.active = none ∧ limit = 5000 ∨
      ∃ a, p.tables.active = some a ∧ limit = a.table.global.holdLimit.toNat) (body : List Octet) :
    holdRequest body p =
      (p.setReport { p.report with held := true, holdTimer := .running limit }, done []) := by
  have limited : p.holdLimit = limit := by
    unfold Part.holdLimit
    rcases inForce with ⟨active, rfl⟩ | ⟨a, active, rfl⟩
    · rw [active]
      rfl
    · rw [active]
  rw [holdRequest, limited]

theorem proceedRequest_held (held : p.report.held = true) (body : List Octet) :
    proceedRequest body p =
      (p.setReport { p.report with held := false, holdTimer := .stopped }, done []) :=
  if_pos held

theorem proceedRequest_released (released : p.report.held = false) (body : List Octet) :
    proceedRequest body p = (p, refuse .state) :=
  if_neg (by simp [released])

end

/-- Settles O26: a mark and a notice by their own equations, and a report cycle as a fold of marks. -/
theorem marksNoticesAndTheReportCycle : Obligations.MarksNoticesAndTheReportCycle := by
  refine ⟨fun r i n => ⟨fun queued => if_pos queued, fun fresh => if_neg fresh,
    fun room => ReportUnit.offer_of_room room n, fun full => ?_⟩, fun s awake =>
      ⟨fun stopped => ?_, fun running => ?_⟩⟩
  · rw [ReportUnit.offer_of_full full]
    exact ⟨ReportUnit.setOverrun_carried, ReportUnit.setOverrun_free⟩
  · exact State.next_of_taken awake (Part.cycleExpiry_stopped stopped)
  · exact State.next_of_taken awake (Part.cycleExpiry_running running)

/-- Settles O44: HOLD and PROCEED as their owner answers them, and the expiry by the telegram on the line. -/
theorem holdingTheLine : Obligations.HoldingTheLine := by
  refine ⟨fun s tag room => ?_, fun s awake => ⟨fun stopped => ?_, fun running => ?_⟩⟩
  · have answered {c : Instr} {kind : Octet} {owner : List Octet → Part → Part × Answer} {p : Part} {a : Answer}
        (ran : exec c s = s.next (s.toPart.unlessReset fun q => q.requestArrives kind [tag] owner))
        (formed : requestForm kind [tag] = true) (answers : owner [tag] (s.toPart.setCountRx .wait) = (p, a))
        (count : p.count = (s.toPart.setCountRx .wait).count) :
        exec c s = s.answeredAfter p tag kind a.outcome a.items :=
      ran.trans (State.next_requestArrives room (by simp) formed answers count)
    refine ⟨fun limit inForce => ?_, fun held => ?_, fun released => ?_⟩
    · exact answered rfl rfl (holdRequest_eq (p := s.toPart.setCountRx .wait) inForce _) rfl
    · exact answered rfl rfl (proceedRequest_held (p := s.toPart.setCountRx .wait) held _) rfl
    · exact answered rfl rfl (proceedRequest_released (p := s.toPart.setCountRx .wait) released _) rfl
  · exact State.next_of_taken awake (Part.holdExpiry_stopped stopped)
  · have expires := State.next_of_taken awake (Part.holdExpiry_running running)
    refine ⟨fun carried => expires.trans ?_, fun free => expires.trans ?_⟩
    · rw [ReportUnit.setHoldExpired_carried carried]
      rfl
    · rw [ReportUnit.setHoldExpired_free free]
      rfl

/-! ## The mirror buffer (R154) -/

theorem Part.offerMirror_room {p : Part} (room : p.report.mirrors.length < 4) (l : LinkId) (octets : List Octet) :
    p.offerMirror l octets =
      p.setReport { p.report with mirrors := p.report.mirrors ++ [{ link := l, octets := octets }] } :=
  if_neg (fun full => absurd (of_decide_eq_true full) (Nat.not_le.2 room))

theorem Part.offerMirror_full {p : Part} (full : 4 ≤ p.report.mirrors.length) (l : LinkId) (octets : List Octet) :
    p.offerMirror l octets =
      p.setLink l { p.link l with mirrorsDropped := raise16 (p.link l).mirrorsDropped } :=
  if_pos (decide_eq_true full)

/-- Settles O47: the two cases of an offer; a mirror telegram, whose kind notes no flags, as it is composed. -/
theorem mirrorsAreBuffered : Obligations.MirrorsAreBuffered :=
  ⟨fun _ l octets => ⟨fun room => Part.offerMirror_room room l octets,
    fun full => Part.offerMirror_full full l octets⟩, fun _ _ _ _ => rfl⟩

end Sys2Proof.Machine
end

section
/-! SUPPORT. The choice of the count-line transmitter (R155), case by case, and the layout of the entries that it
sends (R149, R167). -/

namespace Sys2Proof.Machine

/-! ## The choice (R155) -/

section

variable {p : Part}

theorem Part.startTransmission_busy (busy : p.report.transmitter ≠ none) : p.startTransmission = p := by
  unfold Part.startTransmission
  cases sending : p.report.transmitter with
  | none => exact absurd sending busy
  | some t => rfl

theorem Part.startTransmission_idle (idle : p.report.transmitter = none) : p.startTransmission = p.choose := by
  rw [Part.startTransmission, idle]

theorem Part.choose_reply {r : Reply} {rest : List Reply} (replies : p.count.replies = r :: rest) :
    p.choose = p.sendReply r := by
  rw [Part.choose, replies]

theorem Part.choose_held (replies : p.count.replies = []) (held : p.report.held = true) : p.choose = p := by
  rw [Part.choose, replies]
  exact if_pos held

theorem Part.choose_released (replies : p.count.replies = []) (released : p.report.held = false) :
    p.choose = p.chooseUnheld := by
  rw [Part.choose, replies]
  exact if_neg (by simp [released])

theorem Part.chooseUnheld_report (reports : p.report.queue ≠ []) : p.chooseUnheld = p.sendReport :=
  if_pos reports

section

variable (noReports : p.report.queue = [])

include noReports

theorem Part.chooseUnheld_notices (notices : p.report.notices ≠ []) : p.chooseUnheld = p.sendNotices :=
  (if_neg (not_not.2 noReports)).trans (if_pos notices)

variable (noNotices : p.report.notices = [])

include noNotices

theorem Part.chooseUnheld_mirror {m : Mirror} {rest : List Mirror} (mirrors : p.report.mirrors = m :: rest) :
    p.chooseUnheld = p.sendMirror m rest := by
  rw [Part.chooseUnheld, if_neg (not_not.2 noReports), if_neg (not_not.2 noNotices), mirrors]

theorem Part.chooseUnheld_nothing (noMirrors : p.report.mirrors = []) : p.chooseUnheld = p := by
  rw [Part.chooseUnheld, if_neg (not_not.2 noReports), if_neg (not_not.2 noNotices), noMirrors]

end

end

/-! ## The latches that a report telegram reads (R108, R151) -/

/-- The part whose first entries of the report queue have been read. -/
def Part.latchesRead (p : Part) : Part := (p.report.queue.take reportEntries).foldl (fun q i => q.readLatch i) p

theorem Part.foldl_readLatch_sec (is : List SectionId) (p : Part) (j : SectionId) :
    (is.foldl (fun q i => q.readLatch i) p).sec j =
      if j ∈ is then { p.sec j with latch := false } else p.sec j := by
  induction is generalizing p with
  | nil => rfl
  | cons i is ih =>
    rw [List.foldl_cons, ih, Part.readLatch, Part.sec_setSec_eq]
    by_cases own : j = i
    · subst own
      simp
    · simp [own]

theorem Part.latchesRead_eq (p : Part) : p.latchesRead = { p with sections := p.latchesRead.sections } :=
  foldl_inv (fun q : Part => q = { p with sections := q.sections }) _
    (fun q i same => (congrArg (fun r : Part => r.setSec i { q.sec i with latch := false }) same :)) _ p rfl

theorem Part.sendReport_sec (p : Part) (i : SectionId) :
    p.sendReport.sec i =
      if i ∈ p.report.queue.take 4 then { p.sec i with latch := false } else p.sec i :=
  p.foldl_readLatch_sec _ i

/-- A report telegram, as one update of the sections and the report unit (R151). -/
theorem Part.sendReport_eq (p : Part) :
    p.sendReport = { p with
      sections := p.sendReport.sections
      report := { p.report with
        queue := p.report.queue.drop 4
        transmitter := some
          { kind := .report
            octets := telegram p.ownAddress 0x41
              (p.reportHeader p.report.notices.length ++
                (p.report.queue.take 4).flatMap fun i => reportEntry i (p.sec i))
            notedOverrun := p.report.overrun
            notedHoldExpired := p.report.holdExpired }
        overrunAgain := false
        holdExpiredAgain := false } } :=
  congrArg (fun r : Part => (r.setReport { r.report with queue := p.report.queue.drop reportEntries }).transmit
    .report 0x41 (p.reportHeader p.report.notices.length ++
      (p.report.queue.take reportEntries).flatMap fun i => reportEntry i (p.sec i))) p.latchesRead_eq

/-! ## The end of an event (R155) -/

/-- Every command ends in the end of an event. -/
theorem exec_afterEvent (i : Instr) {s t : State} (ran : exec i s = .next t) :
    ∃ p : Part, t.toPart = p.afterEvent := by
  have ended {p : Part} (ran : s.next p = .next t) : ∃ p : Part, t.toPart = p.afterEvent := by
    cases ran
    exact ⟨p, rfl⟩
  cases i <;> exact ended ran

theorem step_afterEvent {s t : State} (ran : step s = .next t) : ∃ p : Part, t.toPart = p.afterEvent := by
  unfold step at ran
  cases waiting : s.pending with
  | nil =>
    rw [waiting] at ran
    cases ran
    exact ⟨_, rfl⟩
  | cons c rest =>
    rw [waiting] at ran
    exact exec_afterEvent c ran

/-- A step leaves an awake part nothing that its idle transmitter may start. -/
theorem step_transmissionDue {s t : State} (ran : step s = .next t) (awake : t.awake) :
    t.transmissionDue = false := by
  obtain ⟨p, ended⟩ := step_afterEvent ran
  rw [State.awake, ended, Part.afterEvent_inReset] at awake
  rw [ended]
  exact Part.transmissionDue_afterEvent awake

theorem State.exec_transmissionStart {s : State} (awake : s.awake) {q : Part}
    (starts : s.toPart.startTransmission = q) :
    exec .transmissionStart s = .next { s with toPart := q } := by
  rw [← starts, ← Part.unlessReset_awake (p := s.toPart) awake Part.startTransmission]
  rfl

/-! ## Entries (R149, R167) -/

/-- A word whose latch, state code and count stand in their fields is the word of the entry. -/
theorem reportWord_eq {latch : Bool} {code : Octet} {count : Nat} {word : BitVec 16}
    (bit : word.getLsbD 15 = latch) (state : word.extractLsb' 12 3 = code.setWidth 3)
    (low : word.extractLsb' 0 12 = BitVec.ofNat 12 count) :
    BitVec.ofBool latch ++ code.extractLsb' 0 3 ++ BitVec.ofNat 12 count = word := by
  have narrowed : code.extractLsb' 0 3 = code.setWidth 3 := (BitVec.setWidth_eq_extractLsb' (by decide)).symm
  have top : BitVec.ofBool latch = word.extractLsb' 15 1 := by
    subst bit
    ext i h
    simp [show i = 0 by omega]
  have high : word.extractLsb' 15 1 ++ word.extractLsb' 12 3 = word.extractLsb' 12 4 :=
    BitVec.extractLsb'_append_extractLsb'_eq_extractLsb' rfl
  have whole : word.extractLsb' 12 4 ++ word.extractLsb' 0 12 = word.extractLsb' 0 16 :=
    BitVec.extractLsb'_append_extractLsb'_eq_extractLsb' rfl
  rw [narrowed, ← state, ← low, top, high]
  exact whole.trans BitVec.extractLsb'_eq_self

theorem reportEntry_eq (i : SectionId) {r : SectionRec} {word : BitVec 16} (latch : word.getLsbD 15 = r.latch)
    (state : word.extractLsb' 12 3 = (codeSectionState r.state).setWidth 3)
    (count : word.extractLsb' 0 12 = BitVec.ofNat 12 r.count) :
    reportEntry i r =
      [BitVec.ofNat 8 i.val, word.extractLsb' 8 8, word.extractLsb' 0 8, r.number] ++
        (if r.state = .disturbed then codeCause r.cause else [0, 0, 0]) := by
  rw [reportEntry, reportWord_eq latch state count]
  rfl

/-- Settles O45: the transmitter's choice in each of its cases, the end of every step, and the two entries. -/
theorem transmitterChooses : Obligations.TransmitterChooses := by
  refine ⟨?_, fun s t ran awake => step_transmissionDue ran awake, fun i r word latch state count => ?_,
    fun n => ?_⟩
  · rintro s own flags evaluator awake rfl rfl rfl
    have chosen (idle : s.report.transmitter = none) {q : Part} (chooses : s.toPart.choose = q) :
        exec .transmissionStart s = .next { s with toPart := q } :=
      State.exec_transmissionStart awake ((Part.startTransmission_idle idle).trans chooses)
    refine ⟨fun busy => State.exec_transmissionStart awake (Part.startTransmission_busy busy), fun idle =>
      ⟨fun r rest replies => chosen idle (Part.choose_reply replies), fun noReplies held =>
        chosen idle (Part.choose_held noReplies held), fun noReplies released => ?_⟩⟩
    have unheld {q : Part} (chooses : s.toPart.chooseUnheld = q) :
        exec .transmissionStart s = .next { s with toPart := q } :=
      chosen idle ((Part.choose_released noReplies released).trans chooses)
    refine ⟨fun reports => ⟨_, unheld (Part.chooseUnheld_report reports), s.sendReport_sec, ?_⟩,
      fun noReports notices => unheld (Part.chooseUnheld_notices noReports notices),
      fun m rest noReports noNotices mirrors => unheld (Part.chooseUnheld_mirror noReports noNotices mirrors),
      fun noReports noNotices noMirrors => unheld (Part.chooseUnheld_nothing noReports noNotices noMirrors)⟩
    exact congrArg (fun q : Part => { s with toPart := q }) s.sendReport_eq
  · rw [reportEntry_eq i latch state count]
    cases r.cause <;> rfl
  · cases n with
    | relayResult l target station code tag result => cases target <;> rfl
    | storeResult op result state crc => cases crc <;> rfl
    | headState | headRocking | headTemperature | identityLearned | gapBridged | linkState | tableActivated => rfl

end Sys2Proof.Machine
end

section
/-! SUPPORT. The count line while it is held (Law 12, R155, R156). Off the count line no event takes a hold, and what
starts while one stands is a reply; on it an event that touches the report unit places a reply, which starts first. -/

namespace Sys2Proof.Machine

/-! ## The hold and the telegram on the line -/

/-- The hold state and the telegram on the line. -/
def ReportUnit.line (r : ReportUnit) : Bool × Option UpTelegram := (r.held, r.transmitter)

theorem ReportUnit.held_of_line {r r' : ReportUnit} (same : r'.line = r.line) : r'.held = r.held :=
  congrArg Prod.fst same

theorem ReportUnit.transmitter_of_line {r r' : ReportUnit} (same : r'.line = r.line) :
    r'.transmitter = r.transmitter :=
  congrArg Prod.snd same

@[simp] theorem ReportUnit.offer_line (r : ReportUnit) (n : Notice) : (r.offer n).line = r.line := by
  simp [ReportUnit.line]

@[simp] theorem ReportUnit.mark_line (r : ReportUnit) (i : SectionId) : (r.mark i).line = r.line := by
  simp [ReportUnit.line]

@[simp] theorem ReportUnit.foldl_offer_line (notices : List Notice) (r : ReportUnit) :
    (notices.foldl ReportUnit.offer r).line = r.line :=
  foldl_keeps ReportUnit.line _ ReportUnit.offer_line notices r

section

variable (p : Part)

/-! ### Sections, heads and relay queues -/

theorem Part.disturb_line (i : SectionId) (c : Cause) : (p.disturb i c).report.line = p.report.line := by
  simp

@[simp] theorem Part.outOfService_line (h : HeadId) (c : HeadCause) :
    (p.outOfService h c).report.line = p.report.line := by
  rw [Part.outOfService_report]
  rfl

@[simp] theorem Part.failHead_line (h : HeadId) (c : HeadCause) : (p.failHead h c).report.line = p.report.line := by
  unfold Part.failHead Part.offerHeadState
  dsimp only
  split <;> simp

@[simp] theorem Part.wheelEvent_line (h : HeadId) (d : Dir) : (p.wheelEvent h d).report.line = p.report.line := by
  rw [Part.wheelEvent_report]
  rfl

@[simp] theorem Part.completeRelay_line (l : LinkId) (r : RelayResult) :
    (p.completeRelay l r).report.line = p.report.line := by
  unfold Part.completeRelay
  split <;> simp

@[simp] theorem Part.cancelRelays_line (l : LinkId) (picked : RelayCommand → Bool) :
    (p.cancelRelays l picked).report.line = p.report.line := by
  rw [Part.cancelRelays_report, ReportUnit.foldl_offer_line]

/-! ### Head links -/

@[simp] theorem Part.loseHead_line (h : HeadId) : (p.loseHead h).report.line = p.report.line := by
  rw [Part.loseHead_report]
  exact ReportUnit.foldl_offer_line _ _

@[simp] theorem Part.linkLoss_line (l : LinkId) : (p.linkLoss l).report.line = p.report.line := by
  rw [Part.linkLoss, Part.cancelRelays_line]
  exact (foldl_keeps (fun q : Part => q.report.line) _ Part.loseHead_line _ _).trans (ReportUnit.offer_line _ _)

/-- What each write of a telegram's steps leaves as it is. -/
theorem Part.takeTelegram_line (l : LinkId) (h : HeadId) (t : HeadTelegram) :
    (p.takeTelegram l h t).1.report.line = p.report.line := by
  have kept : KeptByTelegramSteps (fun q => q.report.line = p.report.line) h :=
    { setHead := fun same _ => same
      setDecoder := fun _ same => same
      offer := fun n same => (ReportUnit.offer_line _ n).trans same
      failHead := fun c same => (Part.failHead_line _ h c).trans same
      wheelEvent := fun d same => (Part.wheelEvent_line _ h d).trans same
      completeRelay := fun l r same => (Part.completeRelay_line _ l r).trans same }
  exact kept.takeTelegram l t rfl

/-! ### Relay telegrams, expiries and the image store -/

theorem Part.relayStart_line (l : LinkId) : (p.relayStart l).report.line = p.report.line := by simp

theorem Part.relayEnd_line (l : LinkId) : (p.relayEnd l).report.line = p.report.line := by
  unfold Part.relayEnd Part.relaySent
  dsimp only
  (repeat' split) <;> simp

theorem Part.finishStore_line (kind : StoreKind) (result : StoreResult) (image : Image) (state : ImageState)
    (crc : Option Crc) : (p.finishStore kind result image state crc).report.line = p.report.line := by
  simp [Part.finishStore]

theorem Part.writeCompletion_line (readBack : Option Table) :
    (p.writeCompletion readBack).report.line = p.report.line := by
  unfold Part.writeCompletion Part.verify
  dsimp only
  (repeat' split) <;> simp [Part.finishStore_line]

/-- Every expiry but the hold limit's. -/
theorem Part.expire_line {t : TimerId} (other : t ≠ .holdLimit) : (p.expire t).report.line = p.report.line := by
  cases t with
  | silence h =>
    show (p.silenceExpiry h).report.line = _
    unfold Part.silenceExpiry
    split
    · rfl
    · split <;> simp [Part.offerHeadState]
  | confirm i =>
    show (p.confirmExpiry i).report.line = _
    unfold Part.confirmExpiry
    dsimp only
    (repeat' split) <;> simp
  | relay l =>
    show (p.relayExpiry l).report.line = _
    unfold Part.relayExpiry
    split <;> simp
  | holdLimit => exact absurd rfl other
  | reportCycle =>
    show p.cycleExpiry.report.line = _
    unfold Part.cycleExpiry
    split
    · rfl
    · exact foldl_keeps (fun q : Part => q.report.line) _ (fun q i => q.report.mark_line i) _ p
  | store =>
    show p.storeExpiry.report.line = _
    unfold Part.storeExpiry
    (repeat' split) <;> simp [Part.finishStore_line]

/-! ### Requests -/

theorem Part.activate_line (crc : Crc) : (p.activate crc).report.line = p.report.line := by
  rw [p.activate_report crc fun _ => Iff.rfl]
  exact ReportUnit.foldl_offer_line _ _

theorem sectionResetRequest_line (body : List Octet) :
    (sectionResetRequest body p).1.report.line = p.report.line := by
  rcases sectionResetRequest_cases body p with same | ⟨i, r, -, reset⟩
  · rw [same]
  · rw [reset]
    exact ReportUnit.mark_line _ i

theorem haltRequest_line (body : List Octet) : (haltRequest body p).1.report.line = p.report.line := by
  unfold haltRequest
  split
  · show p.halted.report.line = p.report.line
    rw [p.halted_report]
    rfl
  · rfl

theorem tableActivateRequest_line (body : List Octet) :
    (tableActivateRequest body p).1.report.line = p.report.line := by
  unfold tableActivateRequest
  split
  · rfl
  · split
    · exact p.activate_line _
    · rfl

theorem proceedRequest_transmitter (body : List Octet) :
    (proceedRequest body p).1.report.transmitter = p.report.transmitter := by
  unfold proceedRequest
  split <;> rfl

end

/-- No owner of a request touches the telegram on the line: HOLD and PROCEED change the hold alone, the others
mark, offer notices, or leave the report unit. -/
theorem requestOwners_transmitter : ∀ owner ∈ requestOwners, ∀ body p,
    (owner body p).1.report.transmitter = p.report.transmitter := by
  have kept {owner : List Octet → Part → Part × Answer}
      (line : ∀ p body, (owner body p).1.report.line = p.report.line) :
      ∀ body p, (owner body p).1.report.transmitter = p.report.transmitter :=
    fun body p => ReportUnit.transmitter_of_line (line p body)
  simp only [requestOwners, List.forall_mem_cons]
  refine ⟨kept ?_, kept ?_, kept ?_, kept haltRequest_line, kept sectionResetRequest_line, kept ?_, kept ?_, kept ?_,
    kept ?_, kept ?_, kept ?_, kept ?_, kept ?_, kept ?_, kept tableActivateRequest_line, kept ?_, kept ?_, kept ?_,
    fun _ _ => rfl, fun body p => proceedRequest_transmitter p body, kept ?_, List.forall_mem_nil _⟩
  all_goals
    intro p body
    simp only [statusQueryRequest, sectionQueryRequest, startRequest, headQueryRequest, headReleaseRequest,
      headAdoptRequest, linkQueryRequest, headRelayRequest, tableWriteRequest, tableReadRequest, tableCopyRequest,
      tableCheckRequest, storeRequest, commissionRequest, eraseStoreRequest, noOwner] <;>
    (repeat' split) <;> simp [Part.offerHeadState]

/-! ### A start-up and the end of an event -/

/-- A part that has started up is not held (R155, R163). -/
theorem Part.fullReset_startUp_held (p : Part) : p.fullReset.startUp.report.held = false := by
  have loaded (q : Part) (body : ImageBody) : (q.startUpLoad body).report.line = q.report.line := by
    unfold Part.startUpLoad
    dsimp only
    refine (foldl_keeps (fun r : Part => r.report.line) _ (fun r l => ?_) _ _).trans
      (foldl_keeps (fun r : Part => r.report.line) _ (fun r i => r.disturb_line i _) _ _)
    split <;> rfl
  unfold Part.startUp
  dsimp only
  split
  · exact ReportUnit.held_of_line (r := p.fullReset.report) (loaded _ _)
  · rfl

theorem Part.sendReport_held (p : Part) : p.sendReport.report.held = p.report.held := by
  rw [p.sendReport_eq]

theorem Part.choose_keeps_held (p : Part) : p.choose.report.held = p.report.held := by
  unfold Part.choose Part.chooseUnheld
  split
  · rfl
  · split
    · rfl
    · split
      · exact p.sendReport_held
      · split
        · rfl
        · split <;> rfl

/-- No start on the count line takes or releases a hold. -/
theorem Part.afterEvent_keeps_held (p : Part) : p.afterEvent.report.held = p.report.held := by
  unfold Part.afterEvent Part.unlessReset Part.startTransmission
  split
  · rfl
  · split
    · rfl
    · exact p.choose_keeps_held

/-! ## What may be on the line in place of a telegram -/

/-- The transmitter keeps what it was sending, is idle, or sends a reply. -/
def StartsOnlyReplies (before after : Option UpTelegram) : Prop :=
  after = before ∨ after = none ∨ ∃ u, after = some u ∧ u.kind = .reply

/-- While the line is held, no report, notice or mirror telegram has started since `before`. -/
def Part.QuietWhileHeld (before : Option UpTelegram) (p : Part) : Prop :=
  p.report.held = true → StartsOnlyReplies before p.report.transmitter

/-- Held or not, no report, notice or mirror telegram has started since `before`, and none is due but behind a
reply. -/
structure Part.RepliesFirst (before : Option UpTelegram) (p : Part) : Prop where
  started : StartsOnlyReplies before p.report.transmitter
  next    : p.count.replies = [] → p.transmissionDue = false

/-! ### Off the count line -/

namespace Part.QuietWhileHeld

variable {before : Option UpTelegram} {p q : Part}

theorem of_line (quiet : p.QuietWhileHeld before) (same : q.report.line = p.report.line) :
    q.QuietWhileHeld before := by
  unfold Part.QuietWhileHeld
  rw [ReportUnit.held_of_line same, ReportUnit.transmitter_of_line same]
  exact quiet

theorem of_released (released : p.report.held = false) : p.QuietWhileHeld before :=
  fun held => absurd held (by simp [released])

/-- While the line is held the end of an event starts a reply or nothing. -/
theorem afterEvent (quiet : p.QuietWhileHeld before) : p.afterEvent.QuietWhileHeld before := by
  intro held
  rw [Part.afterEvent_keeps_held] at held
  rcases Part.afterEvent_held held with same | reply
  · rw [same]
    exact quiet held
  · exact .inr (.inr reply)

theorem keptByLinkEvents : KeptByLinkEvents (Part.QuietWhileHeld before) where
  setLink quiet _ := quiet.of_line rfl
  offer n quiet := quiet.of_line (ReportUnit.offer_line _ n)
  setMirrors _ quiet := quiet.of_line rfl
  linkLoss quiet := quiet.of_line (Part.linkLoss_line _ _)
  takeTelegram t quiet _ _ := quiet.of_line (Part.takeTelegram_line _ _ _ t)

/-- The hold limit's expiry releases the line (R157). -/
theorem expire (quiet : p.QuietWhileHeld before) (t : TimerId) : (p.expire t).QuietWhileHeld before := by
  by_cases limit : t = .holdLimit
  · subst limit
    by_cases stopped : p.report.holdTimer = .stopped
    · rwa [Part.expire_of_stopped (t := .holdLimit) stopped]
    · refine of_released ?_
      show p.holdExpiry.report.held = false
      rw [Part.holdExpiry_running stopped]
      rfl
  · exact quiet.of_line (p.expire_line limit)

/-- The last octet of a telegram leaves the transmitter idle. -/
theorem endTransmission (quiet : p.QuietWhileHeld before) : p.endTransmission.QuietWhileHeld before := by
  cases sending : p.report.transmitter with
  | none => rwa [Part.endTransmission_idle sending]
  | some t =>
    rw [Part.endTransmission_sending sending]
    exact fun _ => .inr (.inl rfl)

theorem fullReset : p.fullReset.QuietWhileHeld before := of_released rfl

theorem leaveReset (quiet : p.QuietWhileHeld before) : p.leaveReset.QuietWhileHeld before := by
  unfold Part.leaveReset
  split
  · exact quiet
  · exact of_released p.fullReset_startUp_held

theorem changeAddress (quiet : p.QuietWhileHeld before) (address : BitVec 4) :
    (p.changeAddress address).QuietWhileHeld before := by
  have pinned : (p.setPins { p.pins with address := address }).QuietWhileHeld before := quiet.of_line rfl
  unfold Part.changeAddress
  dsimp only
  split
  · exact fullReset
  · split
    · exact pinned.leaveReset
    · exact pinned

theorem rateChange (quiet : p.QuietWhileHeld before) : p.rateChange.QuietWhileHeld before := by
  have links := foldl_inv (Part.QuietWhileHeld before) Part.linkCharTimeout
    (fun _ l => keptByLinkEvents.linkCharTimeout l) (List.finRange 4) p quiet
  rw [Part.rateChange, Part.countCharTimeout_eq]
  exact links.of_line rfl

theorem linkOctets (quiet : p.QuietWhileHeld before) (l : LinkId) (octets : List Octet) :
    (p.lineOctets (.headLink l) octets).QuietWhileHeld before :=
  Part.lineOctets_inv (Part.QuietWhileHeld before) (.headLink l) (fun _ o => keptByLinkEvents.linkOctet l o)
    (fun _ => afterEvent) octets quiet

theorem linkCharWait (quiet : p.QuietWhileHeld before) (l : LinkId) :
    (p.linkCharWait l).QuietWhileHeld before := by
  unfold Part.linkCharWait
  split
  · exact quiet
  · exact keptByLinkEvents.linkCharTimeout l quiet

theorem onItsOwn (quiet : p.QuietWhileHeld before) : p.onItsOwn.QuietWhileHeld before := by
  unfold Part.onItsOwn
  split
  · exact quiet.of_line (p.relayStart_line _)
  · rw [Part.tick_eq_foldl]
    refine foldl_inv (Part.QuietWhileHeld before) _ (fun q t quiet => ?_) _ _ (quiet.of_line rfl)
    by_cases due : q.timer t = .running 0
    · rw [Part.takeExpiry_of_due due]
      exact (quiet.expire t).afterEvent
    · rwa [Part.takeExpiry_of_notDue due]

end Part.QuietWhileHeld

/-! ### On the count line -/

namespace Part.RepliesFirst

variable {before : Option UpTelegram} {p q : Part}

/-- A write of the count line's record that leaves the replies. -/
theorem setCount (first : p.RepliesFirst before) {c : CountLine} (replies : c.replies = p.count.replies) :
    (p.setCount c).RepliesFirst before where
  started := first.started
  next none := by
    have same : (p.setCount c).transmissionDue = p.transmissionDue := Part.transmissionDue_congr rfl replies
    exact same.trans (first.next (replies.symm.trans none))

/-- A reply joins the buffer of a part that has the same telegram on the line. -/
theorem placeReply (first : p.RepliesFirst before) (same : q.report.transmitter = p.report.transmitter)
    (tag kind : Octet) (a : Answer) : (q.placeReply tag kind a).RepliesFirst before where
  started := by
    rw [Part.placeReply, Part.setCount_report, same]
    exact first.started
  next none := absurd none (by simp [Part.placeReply])

theorem takeRequest (first : p.RepliesFirst before) (kind : Octet) (body : List Octet) :
    (p.takeRequest kind body (ownerOf kind)).RepliesFirst before := by
  unfold Part.takeRequest
  split
  · exact first.setCount rfl
  · split
    · exact first.placeReply (requestOwners_transmitter _ (ownerOf_mem kind) body p) _ _ _
    · exact first.placeReply rfl _ _ _

theorem judgeCountTelegram (first : p.RepliesFirst before) (address kind : Octet) (body : List Octet) :
    (p.judgeCountTelegram address kind body).RepliesFirst before := by
  unfold Part.judgeCountTelegram
  split
  · exact first.takeRequest kind body
  · exact first

theorem countTelegramArrives (first : p.RepliesFirst before) (body : List Octet) {f : Part → Part}
    (judged : ∀ {q : Part}, q.RepliesFirst before → (f q).RepliesFirst before) :
    (p.countTelegramArrives body f).RepliesFirst before := by
  unfold Part.countTelegramArrives
  split
  · exact judged (first.setCount rfl)
  · exact first.setCount rfl

theorem countOctet (first : p.RepliesFirst before) (o : Octet) : (p.countOctet o).RepliesFirst before := by
  unfold Part.countOctet
  cases p.count.rx with
  | wait =>
    dsimp only
    split <;> exact first.setCount rfl
  | hunt =>
    dsimp only
    split
    · exact first.setCount rfl
    · exact first
  | frame octets =>
    dsimp only
    cases judgeFrame (octets ++ [o]) with
    | more | badLength | badCrc => exact first.setCount rfl
    | good => exact (first.setCount (c := { p.count with rx := .wait }) rfl).judgeCountTelegram _ _ _

theorem countCharTimeout (first : p.RepliesFirst before) : p.countCharTimeout.RepliesFirst before := by
  unfold Part.countCharTimeout
  cases p.count.rx with
  | frame octets => exact first.setCount rfl
  | wait | hunt => exact first

theorem countQuiet (first : p.RepliesFirst before) : p.countQuiet.RepliesFirst before :=
  first.countCharTimeout.setCount
    (c := { p.countCharTimeout.count with rx := p.countCharTimeout.count.rx.quiet }) rfl

/-- What starts is the front reply, if anything is due. -/
theorem afterEvent (first : p.RepliesFirst before) : p.afterEvent.RepliesFirst before := by
  cases replies : p.count.replies with
  | nil => rwa [Part.afterEvent_of_notDue (first.next replies)]
  | cons r rest =>
    refine ⟨?_, fun none => absurd none (by simp [replies])⟩
    unfold Part.afterEvent Part.unlessReset
    split
    · exact first.started
    · cases sending : p.report.transmitter with
      | none =>
        rw [Part.startTransmission_idle sending, Part.choose_reply replies]
        exact .inr (.inr ⟨_, rfl, rfl⟩)
      | some t =>
        rw [Part.startTransmission_busy (by simp [sending])]
        exact first.started

theorem countOctets (first : p.RepliesFirst before) (octets : List Octet) :
    (p.lineOctets .countLine octets).RepliesFirst before :=
  Part.lineOctets_inv (Part.RepliesFirst before) .countLine (fun _ o first => first.countOctet o)
    (fun _ => afterEvent) octets first

end Part.RepliesFirst

/-! ## Every step -/

/-- A command of the count line starts replies alone; one off it starts nothing else while the line is held. -/
theorem exec_startsOnlyReplies (i : Instr) {s t : State} (settled : s.awake → s.transmissionDue = false)
    (ran : exec i s = .next t) : t.toPart.QuietWhileHeld s.report.transmitter := by
  have quiet : s.toPart.QuietWhileHeld s.report.transmitter := fun _ => .inl rfl
  have ended {p : Part} (quiet : p.QuietWhileHeld s.report.transmitter) (ran : s.next p = .next t) :
      t.toPart.QuietWhileHeld s.report.transmitter := by
    cases ran
    exact quiet.afterEvent
  have off {f : Part → Part} (kept : (f s.toPart).QuietWhileHeld s.report.transmitter)
      (ran : s.next (s.toPart.unlessReset f) = .next t) : t.toPart.QuietWhileHeld s.report.transmitter := by
    refine ended ?_ ran
    unfold Part.unlessReset
    split
    · exact quiet
    · exact kept
  have on {f : Part → Part} (kept : s.toPart.RepliesFirst s.report.transmitter →
        (f s.toPart).RepliesFirst s.report.transmitter)
      (ran : s.next (s.toPart.unlessReset f) = .next t) : t.toPart.QuietWhileHeld s.report.transmitter := by
    cases held : s.toPart.inReset with
    | true =>
      rw [Part.unlessReset_inReset held] at ran
      exact ended quiet ran
    | false =>
      rw [Part.unlessReset_awake held] at ran
      cases ran
      exact fun _ => (kept ⟨.inl rfl, fun _ => settled held⟩).afterEvent.started
  have request (kind : Octet) (body : List Octet)
      (ran : s.next (s.toPart.unlessReset fun p => p.requestArrives kind body (ownerOf kind)) = .next t) :
      t.toPart.QuietWhileHeld s.report.transmitter :=
    on (fun first => first.countTelegramArrives body fun first => first.takeRequest kind body) ran
  have links := Part.QuietWhileHeld.keptByLinkEvents (before := s.report.transmitter)
  cases i with
  | fullReset cause => exact ended .fullReset ran
  | addressStrapChange address => exact ended (quiet.changeAddress address) ran
  | fullResetEnd event =>
    refine ended ?_ ran
    split
    · exact (quiet.of_line (q := s.setPins (s.pins.endReset event)) rfl).leaveReset
    · exact quiet
  | rateStrapChange rate =>
    refine ended ?_ ran
    have pinned : (s.setPins { s.pins with rate := rate }).QuietWhileHeld s.report.transmitter := quiet.of_line rfl
    unfold Part.unlessReset
    split_ifs
    · exact quiet
    · exact pinned
    · exact pinned.rateChange
  | syncMiss line octet =>
    cases line with
    | headLink l => exact off (links.linkOctet l octet quiet) ran
    | countLine => exact on (fun first => first.countOctet octet) ran
  | lengthBadFrame line octets | crcBadFrame line octets =>
    cases line with
    | headLink l => exact off (quiet.linkOctets l octets) ran
    | countLine => exact on (fun first => first.countOctets octets) ran
  | charTimeout line octets =>
    cases line with
    | headLink l => exact off ((quiet.linkOctets l octets).linkCharWait l) ran
    | countLine => exact on (fun first => (first.countOctets octets).countCharTimeout) ran
  | quietInterval line =>
    cases line with
    | headLink l => exact off (links.linkQuiet l quiet) ran
    | countLine => exact on (fun first => first.countQuiet) ran
  | headStatusTelegram l octets => exact off (quiet.linkOctets l octets) ran
  | silenceExpiry h => exact off (quiet.expire (.silence h)) ran
  | confirmExpiry i => exact off (quiet.expire (.confirm i)) ran
  | relayTimerExpiry l => exact off (quiet.expire (.relay l)) ran
  | holdLimitExpiry => exact off (quiet.expire .holdLimit) ran
  | reportCycleExpiry => exact off (quiet.expire .reportCycle) ran
  | storeTimerExpiry => exact off (quiet.expire .store) ran
  | relayTransmissionStart l => exact off (quiet.of_line (s.relayStart_line l)) ran
  | relayTransmissionEnd l => exact off (quiet.of_line (s.relayEnd_line l)) ran
  | writeCompletion readBack => exact off (quiet.of_line (s.writeCompletion_line readBack)) ran
  | transmissionStart => exact ended quiet ran
  | transmissionEnd => exact off quiet.endTransmission ran
  | telegramAddressedElsewhere address kind body =>
    exact on (fun first => first.countTelegramArrives body fun first => first.judgeCountTelegram address kind body) ran
  | requestOfUnknownKind kind body => exact request kind body ran
  | statusQuery body | sectionQuery body | start body | halt body | sectionReset body | headQuery body
  | headRelease body | headAdopt body | linkQuery body | headRelay body | tableWrite body
  | tableRead body | tableCopy body | tableCheck body | tableActivate body | store body
  | commission body | eraseStore body | hold body | proceed body => exact request _ body ran

theorem step_startsOnlyReplies {s t : State} (settled : s.awake → s.transmissionDue = false)
    (ran : step s = .next t) : t.toPart.QuietWhileHeld s.report.transmitter := by
  unfold step at ran
  cases waiting : s.pending with
  | nil =>
    rw [waiting] at ran
    cases ran
    have quiet : s.toPart.QuietWhileHeld s.report.transmitter := fun _ => .inl rfl
    exact (KeptByEvents.unlessReset (fun quiet => Part.QuietWhileHeld.onItsOwn quiet) quiet).afterEvent
  | cons c rest =>
    rw [waiting] at ran
    exact exec_startsOnlyReplies (s := { s with pending := rest }) c settled ran

/-- Settles O60: no event off the count line takes a hold, and one on it starts replies alone. -/
theorem heldLineStartsOnlyReplies : Obligations.HeldLineStartsOnlyReplies :=
  fun _ _ settled ran held => step_startsOnlyReplies settled ran held

end Sys2Proof.Machine
end

section
/-! SUPPORT. The full reset, the start-up sequence block by block, and a part that is held (R126, R158, R163): the
equations of each, from which the statements on resets are read off. -/

namespace Sys2Proof.Machine

/-! ## Running the reset commands -/

theorem exec_fullReset (cause : ResetCause) (s : State) :
    exec (.fullReset cause) s = s.next (s.toPart.setPins (s.pins.assertReset cause)).fullReset :=
  rfl

theorem exec_fullResetEnd_inReset {s : State} (inReset : s.toPart.inReset = true) (event : ResetEnd) :
    exec (.fullResetEnd event) s = s.next (s.toPart.setPins (s.pins.endReset event)).leaveReset := by
  have ends : exec (.fullResetEnd event) s = s.next
      (if s.toPart.inReset then (s.toPart.setPins (s.pins.endReset event)).leaveReset else s.toPart) := rfl
  rw [ends, if_pos inReset]

theorem exec_fullResetEnd_awake {s : State} (awake : s.awake) (event : ResetEnd) :
    exec (.fullResetEnd event) s = .next s.afterEvent := by
  have ends : exec (.fullResetEnd event) s = s.next
      (if s.toPart.inReset then (s.toPart.setPins (s.pins.endReset event)).leaveReset else s.toPart) := rfl
  rw [ends, if_neg (Bool.eq_false_iff.1 awake)]
  rfl

theorem Part.leaveReset_held {p : Part} (held : p.inReset = true) : p.leaveReset = p := if_pos held

theorem Part.leaveReset_released {p : Part} (released : p.inReset = false) :
    p.leaveReset = p.fullReset.startUp :=
  if_neg (Bool.eq_false_iff.1 released)

/-- A part that is still held after an event starts nothing (R155, R163). -/
theorem State.next_of_inReset (s : State) {p : Part} (held : p.inReset = true) :
    s.next p = .next { s with toPart := p } := by
  rw [State.next_eq, State.afterEvent, Part.afterEvent_of_inReset held]

/-- A part at its reset values has nothing to start. -/
theorem State.next_resetValues (s : State) (pins : Pins) (image : Image) (state : ImageState) :
    s.next (Part.resetValues pins image state) =
      .next { toPart := Part.resetValues pins image state, pending := s.pending } := by
  rw [State.next_eq, State.afterEvent,
    Part.afterEvent_of_notDue (p := Part.resetValues pins image state) rfl]

/-- Settles O3: the reset values as `Part.resetValues` writes them, held by the pin of each cause. -/
theorem fullResetTakesResetValues : Obligations.FullResetTakesResetValues := by
  intro s cause
  rw [exec_fullReset, Part.fullReset, State.next_resetValues]
  cases cause <;> rfl

/-! ## What reading the image gives (R158) -/

theorem ImageBody.agrees_iff (b : ImageBody) : b.agrees = true ↔ tableCrc b.table = b.crc := by
  simp [ImageBody.agrees]

theorem Image.read_eq_valid_iff {image : Image} :
    image.read = .valid ↔ image.marker = .valid ∧ image.body.agrees = true := by
  unfold Image.read
  cases image.marker <;> cases image.body.agrees <;> simp

theorem Image.read_eq_validCommissioned_iff {image : Image} :
    image.read = .validCommissioned ↔ image.marker = .commissioned ∧ image.body.agrees = true := by
  unfold Image.read
  cases image.marker <;> cases image.body.agrees <;> simp

theorem Image.agrees_of_read {image : Image} (known : image.read = .valid ∨ image.read = .validCommissioned) :
    image.body.agrees = true := by
  rcases known with read | read
  · exact (Image.read_eq_valid_iff.1 read).2
  · exact (Image.read_eq_validCommissioned_iff.1 read).2

/-- An image with a closing marker over a body that agrees is read as its marker says. -/
theorem Image.read_of_agrees {image : Image} (agrees : image.body.agrees = true)
    (closed : image.marker = .valid ∨ image.marker = .commissioned) :
    image.read = if image.marker = .valid then .valid else .validCommissioned := by
  rcases closed with marker | marker <;> simp [Image.read, marker, agrees]

/-- Every other image is read as EMPTY or as INVALID. -/
theorem Image.read_of_unusable {image : Image} {state : ImageState}
    (unusable : image.marker = .blank ∧ state = .empty ∨ image.marker = .writing ∧ state = .invalid ∨
      (image.marker = .valid ∨ image.marker = .commissioned) ∧ image.body.agrees = false ∧
        state = .invalid) :
    image.read = state := by
  rcases unusable with ⟨marker, rfl⟩ | ⟨marker, rfl⟩ | ⟨marker | marker, agrees, rfl⟩ <;>
    simp [Image.read, *]

/-! ## The links and the report unit after a full reset (R54, R155) -/

@[simp] theorem Part.fullReset_link (p : Part) (l : LinkId) : p.fullReset.link l = LinkRec.reset := by
  simp [Part.link, Part.fullReset, Part.resetValues]

@[simp] theorem Part.fullReset_report (p : Part) : p.fullReset.report = ReportUnit.reset := rfl

/-! ## The start-up sequence block by block (R126, R163) -/

theorem Part.startUp_of_loaded {p : Part}
    (known : p.image.image.read = .valid ∨ p.image.image.read = .validCommissioned) :
    p.startUp = (p.setImage { p.image with state := p.image.image.read }).startUpLoad p.image.image.body :=
  if_pos known

theorem Part.startUp_of_notLoaded {p : Part}
    (unknown : ¬ (p.image.image.read = .valid ∨ p.image.image.read = .validCommissioned)) :
    p.startUp = p.setImage { p.image with state := p.image.image.read } :=
  if_neg unknown

section

variable (p : Part) (body : ImageBody)

@[simp] theorem Part.startUpLoad_image : (p.startUpLoad body).image = p.image := by
  unfold Part.startUpLoad
  exact (foldl_keeps Part.image _ (fun q l => by split <;> rfl) _ _).trans
    (foldl_keeps Part.image _ (fun q i => by simp) _ _)

/-- The stored table becomes the active table and a CHECKED copy in staging. -/
theorem Part.startUpLoad_tables : (p.startUpLoad body).tables =
    { active := some { table := body.table, crc := body.crc }, staging := body.table
      stagingState := .checked body.crc, lastCheck := .pass body.crc } := by
  unfold Part.startUpLoad
  exact (foldl_keeps Part.tables _ (fun q l => by split <;> rfl) _ _).trans
    (foldl_keeps Part.tables _ (fun q i => by simp) _ _)

/-- The evaluator takes the start mode. -/
theorem Part.startUpLoad_evaluator : (p.startUpLoad body).evaluator =
    if body.table.global.startMode = 1 then .running else .halted := by
  unfold Part.startUpLoad
  exact foldl_keeps Part.evaluator _ (fun q l => by split <;> rfl) _ _

/-- Each enabled link goes to SEARCH. -/
theorem Part.startUpLoad_link (l : LinkId) : (p.startUpLoad body).link l =
    if body.table.global.enabled[l] then (p.link l).toSearch else p.link l := by
  unfold Part.startUpLoad
  simp only [Part.setReport_link]
  rw [Part.foldl_link _ (fun l r => if body.table.global.enabled[l] then r.toSearch else r)
      (fun q l m => by
        by_cases own : m = l
        · subst own
          split <;> simp
        · split <;> simp [Part.link_setLink_ne, own]) _ (List.nodup_finRange 4),
    if_pos (List.mem_finRange l), Part.setEvaluator_link,
    foldl_keeps (fun q : Part => q.link l) _ (fun q i => by simp)]
  rfl

/-- The present sections join the report queue in ascending number, and the report cycle starts. -/
theorem Part.startUpLoad_report : (p.startUpLoad body).report =
    { p.report with
      queue := p.report.queue ++ body.table.presentSections.filter fun i => decide (i ∉ p.report.queue)
      cycleTimer := .running body.table.global.reportCycle.toNat } := by
  unfold Part.startUpLoad
  simp only [Part.setReport_report]
  rw [foldl_keeps Part.report _ (fun q l => by split <;> rfl), Part.setEvaluator_report,
    Part.foldl_marks (fun q i => q.disturb i .startUp) _ body.table.presentSections_nodup _
      fun q i _ => q.disturb_report i _]
  rfl

end

/-- The start-up sequence sets the image state and leaves the rest of the image store (R158, R163). -/
@[simp] theorem Part.startUp_image (p : Part) :
    p.startUp.image = { p.image with state := p.image.image.read } := by
  by_cases known : p.image.image.read = .valid ∨ p.image.image.read = .validCommissioned
  · rw [Part.startUp_of_loaded known, Part.startUpLoad_image, Part.setImage_image]
  · rw [Part.startUp_of_notLoaded known, Part.setImage_image]

/-- Settles O5: the blocks of a part that has been reset, one after the other, after the load of an image that is
read as its marker says. -/
theorem startUpLoadsTheImage : Obligations.StartUpLoadsTheImage := by
  rintro s event b inReset released rfl agrees closed
  have read := Image.read_of_agrees ((ImageBody.agrees_iff _).2 agrees) closed
  have known : s.image.image.read = .valid ∨ s.image.image.read = .validCommissioned := by
    rw [read]
    split
    · exact .inl rfl
    · exact .inr rfl
  let p := (s.toPart.setPins (s.pins.endReset event)).fullReset
  have loaded : p.startUp = (p.setImage { p.image with state := s.image.image.read }).startUpLoad
      s.image.image.body := Part.startUp_of_loaded known
  obtain ⟨pins, heads, decoders, count⟩ := p.startUp_keeps
  refine ⟨{ s with toPart := p.startUp }, ?_, pins, rfl, ?_, ?_, fun run => ?_, fun halt => ?_, fun i => ?_,
    fun l => ?_, ?_, heads, decoders, count⟩
  · rw [exec_fullResetEnd_inReset inReset, Part.leaveReset_released released, State.next_eq]
  · rw [← read]
    exact p.startUp_image
  · exact loaded ▸ Part.startUpLoad_tables _ _
  · rw [loaded, Part.startUpLoad_evaluator, if_pos run]
  · rw [loaded, Part.startUpLoad_evaluator, if_neg (by simp [halt])]
  · simp only [loaded, Part.startUpLoad_sec, Part.setImage_sec, p, Part.fullReset_sec]
    rfl
  · simp only [loaded, Part.startUpLoad_link, Part.setImage_link, p, Part.fullReset_link]
    rfl
  · simp only [loaded, Part.startUpLoad_report, Part.setImage_report, p, Part.fullReset_report]
    simp [ReportUnit.reset]

/-- Settles O6: an image that is read as EMPTY or INVALID is not loaded, and what the full reset left stands. -/
theorem startUpFindsNoTable : Obligations.StartUpFindsNoTable := by
  intro s event state inReset released found
  have read : s.image.image.read = state := Image.read_of_unusable <| by
    simpa only [← Bool.not_eq_true, ImageBody.agrees_iff] using found
  have unknown : ¬ (state = .valid ∨ state = .validCommissioned) := by
    rcases found with ⟨-, rfl⟩ | ⟨-, rfl⟩ | ⟨-, -, rfl⟩ <;> simp
  have reset : (s.toPart.setPins (s.pins.endReset event)).fullReset.startUp =
      Part.resetValues (s.pins.endReset event) s.image.image state := by
    subst read
    exact Part.startUp_of_notLoaded unknown
  rw [exec_fullResetEnd_inReset inReset, Part.leaveReset_released released, reset, State.next_resetValues]

/-! ## A part that is held (R163, log 15) -/

/-- A command that is neither a reset nor a strap change does nothing to a part that is held. -/
theorem exec_inReset {s : State} {c : Instr} (inReset : s.toPart.inReset = true)
    (reset : ∀ cause, c ≠ .fullReset cause) (resetEnd : ∀ event, c ≠ .fullResetEnd event)
    (address : ∀ address, c ≠ .addressStrapChange address) (rate : ∀ rate, c ≠ .rateStrapChange rate) :
    exec c s = .next s := by
  cases c with
  | fullReset cause => exact absurd rfl (reset cause)
  | fullResetEnd event => exact absurd rfl (resetEnd event)
  | addressStrapChange a => exact absurd rfl (address a)
  | rateStrapChange r => exact absurd rfl (rate r)
  | transmissionStart => exact s.next_of_inReset inReset
  | _ => exact State.next_unlessReset_held inReset _

theorem exec_rateStrapChange_inReset {s : State} (inReset : s.toPart.inReset = true) (rate : Rate) :
    exec (.rateStrapChange rate) s = .next { s with pins := { s.pins with rate := rate } } := by
  let pinned := s.toPart.setPins { s.pins with rate := rate }
  have held : pinned.inReset = true := inReset
  have changed : exec (.rateStrapChange rate) s =
      s.next (if s.pins.rate = rate then s.toPart else pinned.unlessReset Part.rateChange) := rfl
  have same : (if s.pins.rate = rate then s.toPart else pinned.unlessReset Part.rateChange) = pinned := by
    split
    · rename_i standing
      subst standing
      rfl
    · exact Part.unlessReset_inReset held _
  rw [changed, same, State.next_of_inReset s held]
  rfl

/-- Settles O7: each clause by the command it is about. -/
theorem heldInResetNothingHappens : Obligations.HeldInResetNothingHappens := by
  refine ⟨fun _ _ => exec_inReset, fun s rate inReset => exec_rateStrapChange_inReset inReset rate,
    fun s event inReset held => ?_, fun s event awake => exec_fullResetEnd_awake awake event⟩
  rw [exec_fullResetEnd_inReset inReset, Part.leaveReset_held held, State.next_of_inReset s held]
  rfl

end Sys2Proof.Machine
end

section
/-! SUPPORT. The operations of the image store (R159 to R162): the checks of STORE, COMMISSION and ERASE STORE one by
one, and the ends of an operation. -/

namespace Sys2Proof.Machine

/-! ## The checks of each request (R160 to R162) -/

section

variable {p : Part} (body : List Octet)

theorem storeRequest_unconfigured (unconfigured : p.evaluator = .unconfigured) :
    storeRequest body p = (p, refuse .state) :=
  if_pos unconfigured

theorem storeRequest_busy (configured : p.evaluator ≠ .unconfigured) (busy : p.image.op ≠ .none) :
    storeRequest body p = (p, refuse .busy) := by
  simp [storeRequest, configured, busy]

theorem storeRequest_commissioned (configured : p.evaluator ≠ .unconfigured) (idle : p.image.op = .none)
    (state : p.image.state = .validCommissioned) : storeRequest body p = (p, refuse .commissioned) := by
  simp [storeRequest, configured, idle, state]

/-- A STORE holds a copy of the active table (R160). -/
theorem storeRequest_accepted (configured : p.evaluator ≠ .unconfigured) (idle : p.image.op = .none)
    (state : p.image.state ≠ .validCommissioned) {a : ActiveTable} (active : p.tables.active = some a) :
    storeRequest body p = (p.setImage (p.image.accept (.store a.table a.crc)), accepted []) := by
  simp [storeRequest, configured, idle, state, active]

theorem commissionRequest_busy (busy : p.image.op ≠ .none) :
    commissionRequest body p = (p, refuse .busy) :=
  if_pos busy

theorem commissionRequest_notValid (idle : p.image.op = .none) (state : p.image.state ≠ .valid) :
    commissionRequest body p = (p, refuse .state) := by
  simp [commissionRequest, idle, state]

theorem Part.storedCrcIsActive_iff {a : ActiveTable} (active : p.tables.active = some a) :
    p.storedCrcIsActive = true ↔ p.image.image.body.crc = a.crc := by
  simp [Part.storedCrcIsActive, active]

theorem commissionRequest_otherCrc (idle : p.image.op = .none) (state : p.image.state = .valid)
    (other : p.storedCrcIsActive = false) : commissionRequest body p = (p, refuse .crcMismatch) := by
  simp [commissionRequest, idle, state, other]

theorem commissionRequest_accepted (idle : p.image.op = .none) (state : p.image.state = .valid)
    (same : p.storedCrcIsActive = true) :
    commissionRequest body p = (p.setImage (p.image.accept .commission), accepted []) := by
  simp [commissionRequest, idle, state, same]

theorem eraseStoreRequest_busy (busy : p.image.op ≠ .none) :
    eraseStoreRequest body p = (p, refuse .busy) :=
  if_pos busy

theorem eraseStoreRequest_accepted (idle : p.image.op = .none) :
    eraseStoreRequest body p = (p.setImage (p.image.accept .erase), accepted []) :=
  if_neg (not_not.2 idle)

end

/-- Settles O42: each owner's answer in the order of its checks, and the request's own reply. -/
theorem storeOperationsAreAccepted : Obligations.StoreOperationsAreAccepted := by
  intro s tag accept room accepts
  obtain rfl : accept = s.image.accept := funext accepts
  let p := s.toPart.setCountRx .wait
  have store {q : Part} {a : Answer} (answers : storeRequest [tag] p = (q, a)) (count : q.count = p.count) :
      exec (.store [tag]) s = s.answeredAfter q tag 0x1F a.outcome a.items :=
    State.next_requestArrives room (by simp) rfl answers count
  have commission {q : Part} {a : Answer} (answers : commissionRequest [tag] p = (q, a))
      (count : q.count = p.count) :
      exec (.commission [tag]) s = s.answeredAfter q tag 0x20 a.outcome a.items :=
    State.next_requestArrives room (by simp) rfl answers count
  have erase {q : Part} {a : Answer} (answers : eraseStoreRequest [tag] p = (q, a))
      (count : q.count = p.count) :
      exec (.eraseStore [tag]) s = s.answeredAfter q tag 0x21 a.outcome a.items :=
    State.next_requestArrives room (by simp) rfl answers count
  refine ⟨fun unconfigured => ?_, fun configured busy => ?_, fun configured idle state => ?_,
    fun a configured idle state active => ?_, fun busy => ⟨?_, ?_⟩, fun idle state => ?_, ?_, fun idle => ?_⟩
  · exact store (storeRequest_unconfigured (p := p) _ unconfigured) rfl
  · exact store (storeRequest_busy (p := p) _ configured busy) rfl
  · exact store (storeRequest_commissioned (p := p) _ configured idle state) rfl
  · exact store (storeRequest_accepted (p := p) _ configured idle state active) rfl
  · exact commission (commissionRequest_busy (p := p) _ busy) rfl
  · exact erase (eraseStoreRequest_busy (p := p) _ busy) rfl
  · exact commission (commissionRequest_notValid (p := p) _ idle state) rfl
  · rintro a b idle state active rfl
    have sameCrc := Part.storedCrcIsActive_iff (p := p) active
    refine ⟨fun other => ?_, fun same => ?_⟩
    · exact commission (commissionRequest_otherCrc (p := p) _ idle state
        (Bool.eq_false_iff.2 fun same => other (sameCrc.1 same))) rfl
    · exact commission (commissionRequest_accepted (p := p) _ idle state (sameCrc.2 same)) rfl
  · exact erase (eraseStoreRequest_accepted (p := p) _ idle) rfl

/-! ## The ends of an operation (R159 to R162) -/

section

variable {p : Part}

/-- With no operation in flight there is nothing to complete (log 6). -/
theorem Part.writeCompletion_idle (idle : p.image.op = .none) (readBack : Option Table) :
    p.writeCompletion readBack = p := by
  simp [Part.writeCompletion, idle]

theorem Part.writeCompletion_erase (erasing : p.image.op = .erase) (readBack : Option Table) :
    p.writeCompletion readBack =
      p.finishStore .erase .done { p.image.image with marker := .blank } .empty none := by
  simp [Part.writeCompletion, erasing]

/-- A STORE and a COMMISSION end with the same final step, over the table that each has written or marks. -/
theorem Part.writeCompletion_verify {kind : StoreKind} {written : Table} {crc : Crc} {marker : Marker}
    {state : ImageState}
    (op : p.image.op = .store written crc ∧ kind = .store ∧ marker = .valid ∧ state = .valid ∨
      p.image.op = .commission ∧ p.image.image.body = { table := written, crc := crc } ∧
        kind = .commission ∧ marker = .commissioned ∧ state = .validCommissioned)
    (readBack : Option Table) :
    p.writeCompletion readBack =
      p.verify kind { table := written, crc := crc } (readAs written readBack) marker state := by
  rcases op with ⟨op, rfl, rfl, rfl⟩ | ⟨op, body, rfl, rfl, rfl⟩ <;> simp [Part.writeCompletion, *]

theorem Part.verify_equal {written : ImageBody} {read : Table} (equal : tableCrc read = written.crc)
    (kind : StoreKind) (marker : Marker) (state : ImageState) :
    p.verify kind written read marker state =
      p.finishStore kind .done { marker := marker, body := written } state (some written.crc) :=
  if_pos equal

theorem Part.verify_unequal {written : ImageBody} {read : Table} (unequal : tableCrc read ≠ written.crc)
    (kind : StoreKind) (marker : Marker) (state : ImageState) :
    p.verify kind written read marker state =
      p.finishStore kind .verifyFail { marker := .writing, body := { written with table := read } } .invalid
        none :=
  if_neg unequal

theorem Part.storeExpiry_stopped (stopped : p.image.timer = .stopped) : p.storeExpiry = p :=
  Part.expire_of_stopped (t := .store) stopped

/-- The timer's expiry abandons the operation, whichever it is (R159). -/
theorem Part.storeExpiry_running (running : p.image.timer ≠ .stopped) {kind : StoreKind}
    (op : p.image.op.kind = some kind) :
    p.storeExpiry = p.finishStore kind .timeout p.image.image .invalid none := by
  unfold Part.storeExpiry
  cases timer : p.image.timer with
  | stopped => exact absurd timer running
  | running left => simp [op]

end

/-- Settles O43: the end of each operation as `Part.finishStore` writes it. -/
theorem storeOperationsEnd : Obligations.StoreOperationsEnd := by
  intro s readBack awake
  refine ⟨fun idle => ?_, ?_, fun erasing => ?_, fun stopped => ?_, fun kind running op => ?_⟩
  · exact State.next_of_taken awake (Part.writeCompletion_idle idle readBack)
  · rintro kind written read crc marker state op rfl
    have verifies := Part.writeCompletion_verify op readBack
    exact
      ⟨fun equal => State.next_of_taken awake
        (verifies.trans (Part.verify_equal (written := ⟨written, crc⟩) equal ..)),
      fun unequal => State.next_of_taken awake
        (verifies.trans (Part.verify_unequal (written := ⟨written, crc⟩) unequal ..))⟩
  · exact State.next_of_taken awake (Part.writeCompletion_erase erasing readBack)
  · exact State.next_of_taken awake (Part.storeExpiry_stopped stopped)
  · refine State.next_of_taken awake (Part.storeExpiry_running running ?_)
    rcases op with ⟨⟨_, _, op⟩, rfl⟩ | ⟨op, rfl⟩ | ⟨op, rfl⟩ <;> rw [op] <;> rfl

end Sys2Proof.Machine
end
section
/-! SUPPORT. What a request makes of the table manager and of the image store, and what an event of the count line
is made of: each said once, for every owner and every octet (R128 to R133, R142 to R145, R159 to R162). -/

namespace Sys2Proof.Machine

/-! ## Requests on the tables and on the image store -/

/-- What a request may make of the table manager (R128 to R133). -/
inductive TableManager.AfterRequest (t : TableManager) : TableManager → Prop where
  | same : t.AfterRequest t
  | edited (staging : Table) (lastCheck : CheckResult) :
    t.AfterRequest { t with staging := staging, stagingState := .editing, lastCheck := lastCheck }
  | copied {a : ActiveTable} (active : t.active = some a) : t.AfterRequest
      { t with staging := a.table, stagingState := .checked a.crc, lastCheck := .pass a.crc }
  | checked : t.AfterRequest
      { t with stagingState := .checked (tableCrc t.staging), lastCheck := .pass (tableCrc t.staging) }
  | activated {crc : Crc} (checked : t.stagingState = .checked crc) :
    t.AfterRequest { t with active := some { table := t.staging, crc := crc } }

theorem tableWriteRequest_tables (body : List Octet) (p : Part) :
    p.tables.AfterRequest (tableWriteRequest body p).1.tables := by
  unfold tableWriteRequest
  split
  · exact .same
  · split
    · exact .same
    · split
      · exact .edited _ _
      · exact .same

theorem headAdoptRequest_tables (body : List Octet) (p : Part) :
    p.tables.AfterRequest (headAdoptRequest body p).1.tables := by
  unfold headAdoptRequest
  split
  · exact .same
  · split
    · exact .same
    · exact .edited _ _

theorem tableCopyRequest_tables (body : List Octet) (p : Part) :
    p.tables.AfterRequest (tableCopyRequest body p).1.tables := by
  unfold tableCopyRequest
  split
  · exact .same
  · exact .copied ‹_›

theorem tableCheckRequest_tables (body : List Octet) (p : Part) :
    p.tables.AfterRequest (tableCheckRequest body p).1.tables := by
  unfold tableCheckRequest
  split
  · exact .checked
  · exact .edited _ _

theorem tableActivateRequest_tables (body : List Octet) (p : Part) :
    p.tables.AfterRequest (tableActivateRequest body p).1.tables := by
  unfold tableActivateRequest
  split
  · exact .same
  · split
    · rw [Part.activate_tables]
      exact .activated ‹_›
    · exact .same

theorem haltRequest_keeps (body : List Octet) (p : Part) :
    (haltRequest body p).1.tables = p.tables ∧ (haltRequest body p).1.image = p.image := by
  by_cases running : p.evaluator = .running
  · simp [haltRequest_running running, Part.halted_keeps]
  · simp [haltRequest_elsewhere running]

theorem requestOwners_tables : ∀ owner ∈ requestOwners, ∀ body (p : Part),
    p.tables.AfterRequest (owner body p).1.tables := by
  have plain {owner : List Octet → Part → Part × Answer}
      (kept : ∀ body (p : Part), (owner body p).1.tables = p.tables) :
      ∀ body (p : Part), p.tables.AfterRequest (owner body p).1.tables := fun body p => by
    rw [kept body p]
    exact .same
  simp only [requestOwners, List.forall_mem_cons]
  refine ⟨plain ?_, plain ?_, plain ?_, plain fun body p => (haltRequest_keeps body p).1, plain ?_, plain ?_,
    plain ?_, headAdoptRequest_tables,
    plain ?_, plain ?_, tableWriteRequest_tables, plain ?_, tableCopyRequest_tables, tableCheckRequest_tables,
    tableActivateRequest_tables, plain ?_, plain ?_, plain ?_, plain ?_, plain ?_, plain ?_, List.forall_mem_nil _⟩
  all_goals
    intro body p
    simp only [statusQueryRequest, sectionQueryRequest, startRequest, sectionResetRequest, headQueryRequest,
      headReleaseRequest, linkQueryRequest, headRelayRequest, tableReadRequest, storeRequest, commissionRequest,
      eraseStoreRequest, holdRequest, proceedRequest, noOwner] <;>
    (repeat' split) <;> simp

/-- What a request may make of the image store (R160 to R162). -/
inductive Part.ImageAfterRequest (p : Part) : ImageStore → Prop where
  | same : p.ImageAfterRequest p.image
  | store {a : ActiveTable} (idle : p.image.op = .none) (state : p.image.state ≠ .validCommissioned)
    (active : p.tables.active = some a) :
    p.ImageAfterRequest (p.image.accept (.store a.table a.crc))
  | commission (idle : p.image.op = .none) (state : p.image.state = .valid) :
    p.ImageAfterRequest (p.image.accept .commission)
  | erase (idle : p.image.op = .none) : p.ImageAfterRequest (p.image.accept .erase)

theorem storeRequest_image (body : List Octet) (p : Part) : p.ImageAfterRequest (storeRequest body p).1.image := by
  unfold storeRequest
  split_ifs with unconfigured busy commissioned
  · exact .same
  · exact .same
  · exact .same
  · split
    · exact .same
    · exact .store (not_not.1 busy) commissioned ‹_›

theorem commissionRequest_image (body : List Octet) (p : Part) :
    p.ImageAfterRequest (commissionRequest body p).1.image := by
  unfold commissionRequest
  split_ifs with busy invalid other
  · exact .same
  · exact .same
  · exact .same
  · exact .commission (not_not.1 busy) (not_not.1 invalid)

theorem eraseStoreRequest_image (body : List Octet) (p : Part) :
    p.ImageAfterRequest (eraseStoreRequest body p).1.image := by
  unfold eraseStoreRequest
  split
  · exact .same
  · rename_i idle
    exact .erase (not_not.1 idle)

theorem requestOwners_image : ∀ owner ∈ requestOwners, ∀ body (p : Part),
    p.ImageAfterRequest (owner body p).1.image := by
  have plain {owner : List Octet → Part → Part × Answer}
      (kept : ∀ body (p : Part), (owner body p).1.image = p.image) :
      ∀ body (p : Part), p.ImageAfterRequest (owner body p).1.image := fun body p => by
    rw [kept body p]
    exact .same
  simp only [requestOwners, List.forall_mem_cons]
  refine ⟨plain ?_, plain ?_, plain ?_, plain fun body p => (haltRequest_keeps body p).2, plain ?_, plain ?_,
    plain ?_, plain ?_, plain ?_, plain ?_, plain ?_, plain ?_, plain ?_, plain ?_, plain ?_, storeRequest_image,
    commissionRequest_image, eraseStoreRequest_image, plain ?_, plain ?_, plain ?_, List.forall_mem_nil _⟩
  all_goals
    intro body p
    simp only [statusQueryRequest, sectionQueryRequest, startRequest, sectionResetRequest, headQueryRequest,
      headReleaseRequest, headAdoptRequest, linkQueryRequest, headRelayRequest, tableWriteRequest,
      tableReadRequest, tableCopyRequest, tableCheckRequest, tableActivateRequest, Part.activate, holdRequest,
      proceedRequest, noOwner] <;>
    (repeat' split) <;> simp

/-! ## The events of the count line -/

/-- The count line controller writes its own record, and then may take a request (R141 to R145). -/
inductive Part.AfterCountLine (p : Part) : Part → Prop where
  | record (c : CountLine) : p.AfterCountLine (p.setCount c)
  | request (c : CountLine) (kind : Octet) (body : List Octet) :
    p.AfterCountLine ((p.setCount c).takeRequest kind body (ownerOf kind))

theorem Part.judgeCountTelegram_afterCountLine (p : Part) (c : CountLine) (address kind : Octet)
    (body : List Octet) : p.AfterCountLine ((p.setCount c).judgeCountTelegram address kind body) := by
  unfold Part.judgeCountTelegram
  split
  · exact .request c kind body
  · exact .record c

theorem Part.countOctet_afterCountLine (p : Part) (o : Octet) : p.AfterCountLine (p.countOctet o) := by
  unfold Part.countOctet
  cases p.count.rx with
  | wait =>
    dsimp only
    split <;> exact .record _
  | hunt =>
    dsimp only
    split
    · exact .record _
    · exact .record p.count
  | frame octets =>
    dsimp only
    cases judgeFrame (octets ++ [o]) with
    | more | badLength | badCrc => exact .record _
    | good => exact p.judgeCountTelegram_afterCountLine _ _ _ _

theorem Part.requestArrives_afterCountLine (p : Part) (kind : Octet) (body : List Octet) :
    p.AfterCountLine (p.requestArrives kind body (ownerOf kind)) := by
  unfold Part.requestArrives Part.countTelegramArrives
  split
  · exact .request _ kind body
  · exact .record _

theorem Part.telegramArrives_afterCountLine (p : Part) (address kind : Octet) (body : List Octet) :
    p.AfterCountLine (p.countTelegramArrives body fun q => q.judgeCountTelegram address kind body) := by
  unfold Part.countTelegramArrives
  split
  · exact p.judgeCountTelegram_afterCountLine _ address kind body
  · exact .record _

theorem Part.takeRequest_image (p : Part) (kind : Octet) (body : List Octet) :
    p.ImageAfterRequest (p.takeRequest kind body (ownerOf kind)).image := by
  unfold Part.takeRequest
  split
  · exact .same
  · split
    · exact requestOwners_image _ (ownerOf_mem kind) body p
    · exact .same

end Sys2Proof.Machine
end

section
/-! SUPPORT. Stored CRCs beside their tables, and the commissioned image (Law 10, R159): every event keeps the CRCs,
and none but an accepted ERASE STORE moves the image store of a part in VALID_COMMISSIONED. -/

namespace Sys2Proof.Machine

/-! ## The law of each block -/

/-- The staging CRC and the active CRC are those of their tables (R87, R125). -/
structure TableManager.CrcsSound (t : TableManager) : Prop where
  staging : ∀ crc, t.stagingState = .checked crc → tableCrc t.staging = crc
  active  : ∀ a, t.active = some a → tableCrc a.table = a.crc

/-- The CRCs of the image and of the operation in flight, and the marker of an image known as valid (R158, R160,
R161). -/
structure ImageStore.CrcsSound (i : ImageStore) : Prop where
  storing      : ∀ t crc, i.op = .store t crc → tableCrc t = crc
  commissioned : i.op = .commission → i.image.body.agrees = true
  known        : i.state = .valid ∨ i.state = .validCommissioned → i.image.body.agrees = true
  valid        : i.state = .valid → i.image.marker = .valid
  marked       : i.state = .validCommissioned → i.image.marker = .commissioned

theorem Part.crcsSound_iff (p : Part) : p.CrcsSound ↔ p.tables.CrcsSound ∧ p.image.CrcsSound :=
  ⟨fun ⟨staging, active, storing, commissioned, known, valid, marked⟩ =>
      ⟨⟨staging, active⟩, ⟨storing, commissioned, known, valid, marked⟩⟩,
    fun ⟨⟨staging, active⟩, ⟨storing, commissioned, known, valid, marked⟩⟩ =>
      ⟨staging, active, storing, commissioned, known, valid, marked⟩⟩

theorem TableManager.CrcsSound.afterRequest {t t' : TableManager} (sound : t.CrcsSound)
    (request : t.AfterRequest t') : t'.CrcsSound := by
  cases request with
  | same => exact sound
  | edited staging lastCheck => exact ⟨nofun, sound.active⟩
  | copied active =>
    refine ⟨?_, sound.active⟩
    rintro _ ⟨⟩
    exact sound.active _ active
  | checked =>
    refine ⟨?_, sound.active⟩
    rintro _ ⟨⟩
    rfl
  | activated checked =>
    refine ⟨sound.staging, ?_⟩
    rintro _ ⟨⟩
    exact sound.staging _ checked

namespace ImageStore.CrcsSound

variable {i : ImageStore}

/-- An accepted operation leaves no image known as valid, so that its own table is all there is to say (R159). -/
theorem accept {op : StoreOp} (storing : ∀ t crc, op = .store t crc → tableCrc t = crc)
    (commissioned : op = .commission → i.image.body.agrees = true) : (i.accept op).CrcsSound where
  storing := storing
  commissioned := commissioned
  known := by rintro (⟨⟨⟩⟩ | ⟨⟨⟩⟩)
  valid := nofun
  marked := nofun

/-- The end of an operation over an image that has the marker and the CRC its state tells of. -/
theorem finish {image : Image} {state : ImageState}
    (known : state = .valid ∨ state = .validCommissioned → image.body.agrees = true)
    (valid : state = .valid → image.marker = .valid)
    (marked : state = .validCommissioned → image.marker = .commissioned) :
    (ImageStore.finish image state).CrcsSound where
  storing := nofun
  commissioned := nofun
  known := known
  valid := valid
  marked := marked

/-- An image whose state is neither VALID nor VALID_COMMISSIONED has no CRC to keep. -/
theorem finish_unusable (image : Image) {state : ImageState}
    (unusable : state ≠ .valid ∧ state ≠ .validCommissioned) : (ImageStore.finish image state).CrcsSound :=
  finish (fun known => absurd known (not_or.2 unusable)) (fun valid => absurd valid unusable.1)
    fun marked => absurd marked unusable.2

end ImageStore.CrcsSound

/-- A STORE takes the active CRC with the active table, a COMMISSION an image that is known as VALID (R160, R161). -/
theorem Part.CrcsSound.imageAfterRequest {p : Part} (sound : p.CrcsSound) {i : ImageStore}
    (request : p.ImageAfterRequest i) : i.CrcsSound := by
  obtain ⟨tables, image⟩ := p.crcsSound_iff.1 sound
  cases request with
  | same => exact image
  | store idle state active =>
    refine .accept ?_ nofun
    rintro _ _ ⟨⟩
    exact tables.active _ active
  | commission idle state => exact .accept nofun fun _ => image.known (.inl state)
  | erase idle => exact .accept nofun nofun

namespace Part.CrcsSound

variable {p q : Part}

/-! ## Writes of the two blocks -/

/-- An operation that leaves both blocks. -/
theorem of_blocks (sound : p.CrcsSound) (tables : q.tables = p.tables) (image : q.image = p.image) :
    q.CrcsSound := by
  rw [Part.crcsSound_iff, tables, image]
  exact p.crcsSound_iff.1 sound

theorem setTables (sound : p.CrcsSound) {t : TableManager} (tables : t.CrcsSound) :
    (p.setTables t).CrcsSound :=
  (Part.crcsSound_iff _).2 ⟨tables, (p.crcsSound_iff.1 sound).2⟩

theorem setImage (sound : p.CrcsSound) {i : ImageStore} (image : i.CrcsSound) : (p.setImage i).CrcsSound :=
  (Part.crcsSound_iff _).2 ⟨(p.crcsSound_iff.1 sound).1, image⟩

theorem finishStore (sound : p.CrcsSound) (kind : StoreKind) (result : StoreResult) {image : Image}
    {state : ImageState} (crc : Option Crc) (finished : (ImageStore.finish image state).CrcsSound) :
    (p.finishStore kind result image state crc).CrcsSound :=
  (sound.setImage finished).of_blocks rfl rfl

/-! ## Requests and the ends of a store operation -/

theorem request : ∀ owner ∈ requestOwners, ∀ body p, p.CrcsSound → (owner body p).1.CrcsSound :=
  fun owner mem body p sound => (Part.crcsSound_iff _).2
    ⟨(p.crcsSound_iff.1 sound).1.afterRequest (requestOwners_tables owner mem body p),
      sound.imageAfterRequest (requestOwners_image owner mem body p)⟩

/-- What is written has its CRC where the image ends marked; where it ends WRITING there is nothing to say (R160,
R161). -/
theorem verify (sound : p.CrcsSound) {written : ImageBody} (agrees : written.agrees = true) (kind : StoreKind)
    (read : Table) {marker : Marker} {state : ImageState} (valid : state = .valid → marker = .valid)
    (marked : state = .validCommissioned → marker = .commissioned) :
    (p.verify kind written read marker state).CrcsSound := by
  unfold Part.verify
  split
  · exact sound.finishStore _ _ _ (.finish (fun _ => agrees) valid marked)
  · exact sound.finishStore _ _ _ (.finish_unusable _ (by simp))

theorem writeCompletion (sound : p.CrcsSound) (readBack : Option Table) :
    (p.writeCompletion readBack).CrcsSound := by
  unfold Part.writeCompletion
  dsimp only
  cases op : p.image.op with
  | none => exact sound
  | store table crc =>
    have agrees : ImageBody.agrees ⟨table, crc⟩ = true :=
      (ImageBody.agrees_iff _).2 (sound.storing table crc op)
    exact sound.verify agrees _ _ (fun _ => rfl) nofun
  | commission => exact sound.verify (sound.commissioned op) _ _ nofun fun _ => rfl
  | erase => exact sound.finishStore _ _ _ (.finish_unusable _ (by simp))

/-- An abandoned operation leaves the image INVALID (R159). -/
theorem storeExpiry (sound : p.CrcsSound) : p.storeExpiry.CrcsSound := by
  unfold Part.storeExpiry
  split
  · exact sound
  · split
    · obtain ⟨-, storing, commissioned, known, valid, marked⟩ := p.crcsSound_iff.1 sound
      exact sound.setImage ⟨storing, commissioned, known, valid, marked⟩
    · exact sound.finishStore _ _ _ (.finish_unusable _ (by simp))

theorem expire (sound : p.CrcsSound) (t : TimerId) : (p.expire t).CrcsSound := by
  cases t with
  | store => exact sound.storeExpiry
  | silence | confirm | relay | holdLimit | reportCycle =>
    exact sound.of_blocks (by simp [Part.expire]) (by simp [Part.expire])

/-- A millisecond moves the store timer alone, which no CRC depends on. -/
theorem countDown (sound : p.CrcsSound) : p.countDown.CrcsSound := by
  obtain ⟨staging, active, storing, commissioned, known, valid, marked⟩ := sound
  exact ⟨staging, active, storing, commissioned, known, valid, marked⟩

/-! ## Full reset, start-up and every event -/

/-- A full reset leaves no table, no operation in flight, and the image with its state (R163). -/
theorem fullReset (sound : p.CrcsSound) : p.fullReset.CrcsSound where
  staging := nofun
  active := nofun
  storing := nofun
  commissioned := nofun
  known := sound.known
  valid := sound.valid
  marked := sound.marked

/-- The image that is loaded agrees with its CRC, and its state is that of its marker (R158, R163). -/
theorem startUp (sound : p.CrcsSound) : p.startUp.CrcsSound := by
  obtain ⟨tables, image⟩ := p.crcsSound_iff.1 sound
  refine (Part.crcsSound_iff _).2 ⟨?_, ?_⟩
  · by_cases known : p.image.image.read = .valid ∨ p.image.image.read = .validCommissioned
    · rw [Part.startUp_of_loaded known, Part.startUpLoad_tables]
      have agrees := (ImageBody.agrees_iff _).1 (Image.agrees_of_read known)
      refine ⟨?_, ?_⟩ <;>
      · rintro _ ⟨⟩
        exact agrees
    · rwa [Part.startUp_of_notLoaded known]
  · rw [Part.startUp_image]
    exact
      { storing := image.storing
        commissioned := image.commissioned
        known := Image.agrees_of_read
        valid := fun read => (Image.read_eq_valid_iff.1 read).1
        marked := fun read => (Image.read_eq_validCommissioned_iff.1 read).1 }

theorem keptByLinkEvents : KeptByLinkEvents Part.CrcsSound where
  setLink sound _ := sound.of_blocks rfl rfl
  offer _ sound := sound.of_blocks rfl rfl
  setMirrors _ sound := sound.of_blocks rfl rfl
  linkLoss sound := sound.of_blocks (by simp) (by simp)
  takeTelegram _ sound _ _ := sound.of_blocks (by simp) (by simp)

theorem keptUntilStartUp : KeptUntilStartUp Part.CrcsSound where
  link := keptByLinkEvents
  setPins _ sound := sound.of_blocks rfl rfl
  fullReset sound := sound.fullReset
  setCount _ sound := sound.of_blocks rfl rfl
  request := request
  countDown sound := sound.countDown
  expire t sound := sound.expire t
  relayStart _ sound := sound.of_blocks (by simp) (by simp)
  relayEnd _ sound := sound.of_blocks (by simp) (by simp)
  writeCompletion readBack sound := sound.writeCompletion readBack
  endTransmission sound := sound.of_blocks (by simp) (by simp)
  afterEvent sound := sound.of_blocks (by simp) (by simp)

end Part.CrcsSound

theorem step_crcsSound {s t : State} (sound : s.toPart.CrcsSound) (ran : step s = .next t) :
    t.toPart.CrcsSound :=
  (Part.CrcsSound.keptUntilStartUp.keptByEvents fun _ reset => reset.startUp).step sound ran

/-! ## The commissioned image store

Every event but a request leaves it as it is: a full reset keeps the image with its state, a start-up reads the same
state again, and with no operation in flight nothing is completed or abandoned. -/

/-- The image store of a part in VALID_COMMISSIONED: its image reads so, and no operation is in flight (R158, R159). -/
structure ImageStore.Commissioned (i : ImageStore) : Prop where
  state   : i.state = .validCommissioned
  read    : i.image.read = .validCommissioned
  idle    : i.op = .none
  stopped : i.timer = .stopped

theorem Part.commissioned_of_sound {p : Part} (store : p.StoreSound) (crcs : p.CrcsSound)
    (state : p.image.state = .validCommissioned) : p.image.Commissioned := by
  obtain ⟨inFlight, runs⟩ := store
  have idle : p.image.op = .none := by
    by_contra busy
    have invalid := (inFlight busy).1
    rw [state] at invalid
    cases invalid
  exact
    { state := state
      read := Image.read_eq_validCommissioned_iff.2 ⟨crcs.marked state, crcs.known (.inr state)⟩
      idle := idle
      stopped := by simpa [idle] using runs }

section

variable {p : Part} (commissioned : p.image.Commissioned)

include commissioned

theorem Part.fullReset_image_of_commissioned : p.fullReset.image = p.image := by
  obtain ⟨-, -, idle, stopped⟩ := commissioned
  have kept : p.fullReset.image = { p.image with op := .none, timer := .stopped } := rfl
  rw [kept, ← idle, ← stopped]

theorem Part.startUp_image_of_commissioned : p.startUp.image = p.image := by
  rw [Part.startUp_image, commissioned.read, ← commissioned.state]

theorem Part.leaveReset_image_of_commissioned : p.leaveReset.image = p.image := by
  have reset := Part.fullReset_image_of_commissioned commissioned
  unfold Part.leaveReset
  split
  · rfl
  · rw [Part.startUp_image_of_commissioned (reset.symm ▸ commissioned), reset]

theorem Part.changeAddress_image_of_commissioned (address : BitVec 4) :
    (p.changeAddress address).image = p.image := by
  unfold Part.changeAddress
  dsimp only
  split
  · exact Part.fullReset_image_of_commissioned (p := p.setPins _) commissioned
  · split
    · exact Part.leaveReset_image_of_commissioned (p := p.setPins _) commissioned
    · rfl

theorem Part.countDown_image_of_commissioned : p.countDown.image = p.image := by
  have counted : p.countDown.image = { p.image with timer := p.image.timer.countDown } := rfl
  rw [counted, commissioned.stopped, Timer.countDown, ← commissioned.stopped]

theorem Part.expire_image_of_commissioned (t : TimerId) : (p.expire t).image = p.image := by
  cases t with
  | store => rw [Part.expire_of_stopped (t := .store) commissioned.stopped]
  | silence | confirm | relay | holdLimit | reportCycle => simp [Part.expire]

/-- A millisecond has no store operation to time out, nor has the start of a relay telegram any to end. -/
theorem Part.onItsOwn_image_of_commissioned : p.onItsOwn.image = p.image := by
  unfold Part.onItsOwn
  split
  · simp
  · rw [Part.tick_eq_foldl]
    refine foldl_inv (fun q : Part => q.image = p.image) _ (fun q t same => ?_) _ _
      (Part.countDown_image_of_commissioned commissioned)
    unfold Part.takeExpiry Part.takeDue
    split
    · simp [Part.expire_image_of_commissioned (same.symm ▸ commissioned : q.image.Commissioned), same]
    · exact same

end

/-! ## Commands against a commissioned image store -/

/-- The image store is `i`, or an ERASE STORE has been accepted. -/
def Part.ErasedAtMost (i : ImageStore) (p : Part) : Prop := p.image = i ∨ p.image.op = .erase

namespace Part.ErasedAtMost

variable {i : ImageStore} {p q : Part}

theorem of_image (erased : p.ErasedAtMost i) (same : q.image = p.image) : q.ErasedAtMost i := by
  unfold Part.ErasedAtMost
  rw [same]
  exact erased

/-- Of a commissioned image store a STORE and a COMMISSION are refused; while the ERASE is in flight all three are
(R159 to R162). -/
theorem takeRequest (erased : p.ErasedAtMost i) (commissioned : i.Commissioned) (kind : Octet)
    (body : List Octet) : (p.takeRequest kind body (ownerOf kind)).ErasedAtMost i := by
  have request := p.takeRequest_image kind body
  unfold Part.ErasedAtMost
  generalize (p.takeRequest kind body (ownerOf kind)).image = j at request ⊢
  rcases erased with rfl | erasing
  · cases request with
    | same => exact .inl rfl
    | store idle state active => exact absurd commissioned.state state
    | commission idle state => simp [commissioned.state] at state
    | erase idle => exact .inr rfl
  · cases request with
    | same => exact .inr erasing
    | store idle | commission idle | erase idle => simp [erasing] at idle

theorem afterCountLine (erased : p.ErasedAtMost i) (commissioned : i.Commissioned) (ran : p.AfterCountLine q) :
    q.ErasedAtMost i := by
  cases ran with
  | record c => exact erased.of_image rfl
  | request c kind body => exact (erased.of_image (q := p.setCount c) rfl).takeRequest commissioned kind body

theorem lineOctet (erased : p.ErasedAtMost i) (commissioned : i.Commissioned) (line : Line) (o : Octet) :
    (p.lineOctet line o).ErasedAtMost i := by
  cases line with
  | headLink l => exact erased.of_image (by simp [Part.lineOctet])
  | countLine => exact erased.afterCountLine commissioned (p.countOctet_afterCountLine o)

theorem lineOctets (erased : p.ErasedAtMost i) (commissioned : i.Commissioned) (line : Line)
    (octets : List Octet) : (p.lineOctets line octets).ErasedAtMost i :=
  Part.lineOctets_inv (Part.ErasedAtMost i) line (fun _ o erased => erased.lineOctet commissioned line o)
    (fun _ erased => erased.of_image (by simp)) octets erased

end Part.ErasedAtMost

theorem Part.countCharTimeout_image (p : Part) : p.countCharTimeout.image = p.image := by
  rw [Part.countCharTimeout_eq]
  rfl

theorem Part.lineCharTimeout_image (p : Part) (line : Line) : (p.lineCharTimeout line).image = p.image := by
  cases line with
  | headLink l => simp [Part.lineCharTimeout]
  | countLine => exact p.countCharTimeout_image

theorem Part.lineQuiet_image (p : Part) (line : Line) : (p.lineQuiet line).image = p.image := by
  cases line with
  | headLink l => simp [Part.lineQuiet]
  | countLine => exact p.countCharTimeout_image

theorem Part.rateChange_image (p : Part) : p.rateChange.image = p.image := by
  rw [Part.rateChange, Part.countCharTimeout_image]
  exact foldl_keeps Part.image _ (fun q l => by simp) _ p

/-- No command but one that brings a request moves a commissioned image store, and of the requests only an ERASE
STORE. -/
theorem exec_erasedAtMost (i : Instr) {s t : State} (commissioned : s.image.Commissioned)
    (ran : exec i s = .next t) : t.toPart.ErasedAtMost s.image := by
  have start : s.toPart.ErasedAtMost s.image := .inl rfl
  have ended {p : Part} (erased : p.ErasedAtMost s.image) (ran : s.next p = .next t) :
      t.toPart.ErasedAtMost s.image := by
    cases ran
    exact erased.of_image (by simp)
  have awake {f : Part → Part} (erased : (f s.toPart).ErasedAtMost s.image)
      (ran : s.next (s.toPart.unlessReset f) = .next t) : t.toPart.ErasedAtMost s.image := by
    refine ended ?_ ran
    unfold Part.unlessReset
    split
    · exact start
    · exact erased
  have request (kind : Octet) (body : List Octet)
      (ran : s.next (s.toPart.unlessReset fun p => p.requestArrives kind body (ownerOf kind)) = .next t) :
      t.toPart.ErasedAtMost s.image :=
    awake (start.afterCountLine commissioned (s.requestArrives_afterCountLine kind body)) ran
  have expiry (t' : TimerId) (ran : s.next (s.toPart.unlessReset fun p => p.expire t') = .next t) :
      t.toPart.ErasedAtMost s.image :=
    awake (.inl (Part.expire_image_of_commissioned commissioned t')) ran
  cases i with
  | fullReset cause =>
    exact ended (.inl (Part.fullReset_image_of_commissioned (p := s.setPins (s.pins.assertReset cause)) commissioned)) ran
  | addressStrapChange address =>
    exact ended (.inl (Part.changeAddress_image_of_commissioned commissioned address)) ran
  | fullResetEnd event =>
    refine ended ?_ ran
    split
    · exact .inl (Part.leaveReset_image_of_commissioned (p := s.setPins _) commissioned)
    · exact start
  | rateStrapChange rate =>
    refine ended (.inl ?_) ran
    unfold Part.unlessReset
    split_ifs
    · rfl
    · rfl
    · exact Part.rateChange_image _
  | syncMiss line octet => exact awake (start.lineOctet commissioned line octet) ran
  | lengthBadFrame line octets | crcBadFrame line octets =>
    exact awake (start.lineOctets commissioned line octets) ran
  | headStatusTelegram l octets => exact awake (start.lineOctets commissioned (.headLink l) octets) ran
  | charTimeout line octets =>
    exact awake ((start.lineOctets commissioned line octets).of_image (Part.lineCharTimeout_image _ line)) ran
  | quietInterval line => exact awake (start.of_image (Part.lineQuiet_image _ line)) ran
  | silenceExpiry h => exact expiry (.silence h) ran
  | confirmExpiry i => exact expiry (.confirm i) ran
  | relayTimerExpiry l => exact expiry (.relay l) ran
  | holdLimitExpiry => exact expiry .holdLimit ran
  | reportCycleExpiry => exact expiry .reportCycle ran
  | storeTimerExpiry => exact expiry .store ran
  | relayTransmissionStart l | relayTransmissionEnd l => exact awake (start.of_image (by simp)) ran
  | writeCompletion readBack =>
    exact awake (start.of_image (by rw [Part.writeCompletion_idle commissioned.idle])) ran
  | transmissionStart => exact ended start ran
  | transmissionEnd => exact awake (start.of_image (by simp)) ran
  | telegramAddressedElsewhere address kind body =>
    exact awake (start.afterCountLine commissioned (s.telegramArrives_afterCountLine address kind body)) ran
  | requestOfUnknownKind kind body => exact request kind body ran
  | statusQuery body | sectionQuery body | start body | halt body | sectionReset body | headQuery body
  | headRelease body | headAdopt body | linkQuery body | headRelay body | tableWrite body
  | tableRead body | tableCopy body | tableCheck body | tableActivate body | store body
  | commission body | eraseStore body | hold body | proceed body => exact request _ body ran

theorem step_erasedAtMost {s t : State} (commissioned : s.image.Commissioned) (ran : step s = .next t) :
    t.toPart.ErasedAtMost s.image := by
  unfold step at ran
  cases waiting : s.pending with
  | nil =>
    rw [waiting] at ran
    cases ran
    have own := KeptByEvents.unlessReset (P := fun q : Part => q.image = s.image) (p := s.toPart)
      (f := Part.onItsOwn)
      (fun same => (Part.onItsOwn_image_of_commissioned (same ▸ commissioned)).trans same) rfl
    exact .inl (by simpa using own)
  | cons c rest =>
    rw [waiting] at ran
    exact exec_erasedAtMost (s := { s with pending := rest }) c commissioned ran

/-- Settles O59: every event keeps the CRCs beside their tables, and a commissioned image store is left as it is
until an ERASE STORE is accepted. -/
theorem commissionedImageIsChangedByEraseAlone : Obligations.CommissionedImageIsChangedByEraseAlone := by
  refine ⟨fun s t => step_crcsSound, fun s t store crcs state ran => ?_⟩
  rcases step_erasedAtMost (Part.commissioned_of_sound store crcs state) ran with same | erasing
  · exact .inl ⟨by rw [same], by rw [same, state]⟩
  · exact .inr erasing

end Sys2Proof.Machine
end

section
/-! SUPPORT. The step of a queue with a command at its front (0.4). -/

namespace Sys2Proof.Machine

theorem step_of_front {s : State} {c : Instr} {rest : List Instr} (front : s.pending = c :: rest) :
    step s = exec c { s with pending := rest } := by
  rw [step, front]

/-- Settles O1, by the branch of a step that finds a command. -/
theorem stepRunsFrontCommand : Obligations.StepRunsFrontCommand :=
  fun _ _ _ => step_of_front

end Sys2Proof.Machine
end

section
/-! SUPPORT. The table records (R69, R168): an encoder and its decoder are inverse to each other, from the same said
once of each group of octets that a record is laid out in. -/

namespace Sys2Proof.Machine

/-! ## Words and nibbles (R164, R168) -/

theorem octets16_append (a b : Octet) : octets16 (a ++ b) = [a, b] := by
  rw [octets16, BitVec.extractLsb'_append_eq_left, BitVec.extractLsb'_append_eq_right]

theorem octets24_append (a b c : Octet) : octets24 (a ++ b ++ c) = [a, b, c] := by
  have high : (a ++ b ++ c).extractLsb' 16 8 = a :=
    (BitVec.extractLsb'_append_eq_of_le (by decide)).trans BitVec.extractLsb'_append_eq_left
  have middle : (a ++ b ++ c).extractLsb' 8 8 = b :=
    (BitVec.extractLsb'_append_eq_of_le (by decide)).trans BitVec.extractLsb'_append_eq_right
  rw [octets24, high, middle, BitVec.extractLsb'_append_eq_right]

theorem word_of_octets (v : BitVec 16) : v.extractLsb' 8 8 ++ v.extractLsb' 0 8 = v :=
  BitVec.extractLsb'_append_extractLsb'

theorem identity_of_octets (v : Identity) :
    v.extractLsb' 16 8 ++ v.extractLsb' 8 8 ++ v.extractLsb' 0 8 = v := by
  have upper : v.extractLsb' 16 8 ++ v.extractLsb' 8 8 = v.extractLsb' 8 16 :=
    BitVec.extractLsb'_append_extractLsb'_eq_extractLsb' rfl
  rw [upper]
  exact BitVec.extractLsb'_append_extractLsb'

theorem nibbles_extract (o : Octet) : nibbles (o.extractLsb' 4 4) (o.extractLsb' 0 4) = o :=
  BitVec.extractLsb'_append_extractLsb'

theorem nibbles_high (a b : BitVec 4) : (nibbles a b).extractLsb' 4 4 = a :=
  BitVec.extractLsb'_append_eq_left

theorem nibbles_low (a b : BitVec 4) : (nibbles a b).extractLsb' 0 4 = b :=
  BitVec.extractLsb'_append_eq_right

/-! ## Flags with spare bits (R168): two in a HEAD or SECTION record, four in a GLOBAL record -/

theorem codeFlag_getElem (b : Bool) {i : Nat} (inside : i < 8) :
    (codeFlag b)[i] = (decide (i = 0) && b) := by
  cases b <;> simp [codeFlag]

theorem twoFlags_spare (a b : Bool) : (codeFlag a ||| (codeFlag b <<< 1)).extractLsb' 2 6 = 0 := by
  decide +revert

theorem twoFlags_bits (a b : Bool) :
    (codeFlag a ||| (codeFlag b <<< 1)).getLsbD 0 = a ∧
    (codeFlag a ||| (codeFlag b <<< 1)).getLsbD 1 = b := by
  simp [codeFlag_getElem]

theorem fourFlags_spare (a b c d : Bool) :
    (codeFlag a ||| (codeFlag b <<< 1) ||| (codeFlag c <<< 2) ||| (codeFlag d <<< 3)).extractLsb' 4 4
      = 0 := by
  decide +revert

theorem fourFlags_bits (a b c d : Bool) :
    let flags := codeFlag a ||| (codeFlag b <<< 1) ||| (codeFlag c <<< 2) ||| (codeFlag d <<< 3)
    flags.getLsbD 0 = a ∧ flags.getLsbD 1 = b ∧ flags.getLsbD 2 = c ∧ flags.getLsbD 3 = d := by
  simp [codeFlag_getElem]

/-- The bits above the flags are clear where the spare part of the octet is 0. -/
theorem getElem_of_spare {o : Octet} {k m i : Nat} (spare : o.extractLsb' k m = 0) (above : k ≤ i)
    (inside : i < 8) (spares : k + m = 8) : o[i] = false := by
  have bit := congrArg (·.getLsbD (i - k)) spare
  simpa [BitVec.getLsbD_extractLsb', show i - k < m by omega, Nat.add_sub_cancel' above,
    BitVec.getLsbD_eq_getElem inside] using bit

theorem twoFlags_of_spare {o : Octet} (spare : o.extractLsb' 2 6 = 0) :
    codeFlag (o.getLsbD 0) ||| (codeFlag (o.getLsbD 1) <<< 1) = o := by
  ext i inside
  rcases Nat.lt_or_ge i 2 with flag | above
  · interval_cases i <;> simp [codeFlag_getElem]
  · simp [codeFlag_getElem, getElem_of_spare spare above inside, show i ≠ 0 by omega,
      show i - 1 ≠ 0 by omega]

theorem fourFlags_of_spare {o : Octet} (spare : o.extractLsb' 4 4 = 0) :
    codeFlag (o.getLsbD 0) ||| (codeFlag (o.getLsbD 1) <<< 1) ||| (codeFlag (o.getLsbD 2) <<< 2) |||
      (codeFlag (o.getLsbD 3) <<< 3) = o := by
  ext i inside
  rcases Nat.lt_or_ge i 4 with flag | above
  · interval_cases i <;> simp [codeFlag_getElem]
  · simp [codeFlag_getElem, getElem_of_spare spare above inside, show i ≠ 0 by omega,
      show i - 1 ≠ 0 by omega, show i - 2 ≠ 0 by omega, show i - 3 ≠ 0 by omega]

/-! ## GLOBAL and HEAD records -/

theorem vector_eq_of_four {α : Type} (v : Vector α 4) : #v[v[0], v[1], v[2], v[3]] = v := by
  ext i inside
  interval_cases i <;> rfl

theorem decodeGlobal_encodeGlobal (g : GlobalRecord) : decodeGlobal (encodeGlobal g) = some g := by
  obtain ⟨flag0, flag1, flag2, flag3⟩ :=
    fourFlags_bits g.enabled[0] g.enabled[1] g.enabled[2] g.enabled[3]
  refine (if_pos (fourFlags_spare ..)).trans (congrArg some ?_)
  simp only [word_of_octets, nibbles_high, nibbles_low, flag0, flag1, flag2, flag3, vector_eq_of_four]

theorem encodeGlobal_of_decodeGlobal {octets : List Octet} {g : GlobalRecord}
    (read : decodeGlobal octets = some g) : encodeGlobal g = octets := by
  unfold decodeGlobal at read
  split at read
  case h_2 => cases read
  case h_1 =>
    obtain ⟨spare, same⟩ := Option.ite_none_right_eq_some.1 read
    cases same
    simpa [encodeGlobal, octets16_append, nibbles_extract] using fourFlags_of_spare spare

theorem decodeHead_encodeHead (r : HeadRecord) : decodeHead (encodeHead r) = some r := by
  obtain ⟨flag0, flag1⟩ := twoFlags_bits r.present r.mirror
  refine (if_pos (twoFlags_spare ..)).trans (congrArg some ?_)
  simp only [word_of_octets, identity_of_octets, flag0, flag1]

theorem encodeHead_of_decodeHead {octets : List Octet} {r : HeadRecord}
    (read : decodeHead octets = some r) : encodeHead r = octets := by
  unfold decodeHead at read
  split at read
  case h_2 => cases read
  case h_1 =>
    obtain ⟨spare, same⟩ := Option.ite_none_right_eq_some.1 read
    cases same
    rw [encodeHead, octets16_append, octets24_append, twoFlags_of_spare spare]
    rfl

/-! ## SECTION records -/

/-- The octets of a boundary list (R168). -/
def encodeEntries (entries : List BoundaryEntry) : List Octet :=
  entries.flatMap fun e => [e.head, e.inward]

theorem length_encodeEntries (entries : List BoundaryEntry) :
    (encodeEntries entries).length = 2 * entries.length := by
  simp [encodeEntries, Nat.mul_comm]

theorem decodeEntries_encodeEntries (entries : List BoundaryEntry) :
    decodeEntries (encodeEntries entries) = entries := by
  induction entries with
  | nil => rfl
  | cons e rest ih => exact congrArg (e :: ·) ih

theorem encodeEntries_decodeEntries {octets : List Octet} (even : Even octets.length) :
    encodeEntries (decodeEntries octets) = octets := by
  induction octets using decodeEntries.induct with
  | case1 head inward rest ih =>
    exact congrArg (head :: inward :: ·) (ih (by simpa [Nat.even_add_one] using even))
  | case2 octets short =>
    match octets with
    | [] => rfl
    | [_] => simp at even
    | head :: inward :: rest => exact absurd rfl (short head inward rest)

theorem length_decodeEntries {octets : List Octet} (even : Even octets.length) :
    octets.length = 2 * (decodeEntries octets).length := by
  rw [← length_encodeEntries, encodeEntries_decodeEntries even]

theorem encodeSection_eq (r : SectionRecord) : encodeSection r =
    (codeFlag r.present ||| (codeFlag r.directReset <<< 1)) ::
      (octets16 r.countLimit ++ octets16 r.confirmTime ++
        octetOf r.boundary.length :: encodeEntries r.boundary) := rfl

theorem length_encodeSection (r : SectionRecord) :
    (encodeSection r).length = 6 + 2 * r.boundary.length := by
  simp only [encodeSection_eq, octets16, List.length_cons, List.length_append, List.length_nil,
    length_encodeEntries]
  omega

theorem decodeSection_encodeSection {r : SectionRecord} (atMost : r.boundary.length ≤ 4) :
    decodeSection (encodeSection r) = some r := by
  obtain ⟨flag0, flag1⟩ := twoFlags_bits r.present r.directReset
  have count : (octetOf r.boundary.length).toNat = r.boundary.length := octetOf_toNat (by omega)
  have length : (encodeEntries r.boundary).length = 2 * (octetOf r.boundary.length).toNat := by
    rw [count, length_encodeEntries]
  rw [encodeSection_eq]
  refine (if_pos ⟨twoFlags_spare .., count.le.trans atMost, length⟩).trans (congrArg some ?_)
  simp only [word_of_octets, flag0, flag1, decodeEntries_encodeEntries]

theorem encodeSection_of_decodeSection {octets : List Octet} {r : SectionRecord}
    (read : decodeSection octets = some r) : r.boundary.length ≤ 4 ∧ encodeSection r = octets := by
  unfold decodeSection at read
  split at read
  case h_2 => cases read
  case h_1 flags l1 l2 c1 c2 n entries =>
    obtain ⟨⟨spare, atMost, length⟩, same⟩ := Option.ite_none_right_eq_some.1 read
    cases same
    have even : Even entries.length := length ▸ even_two_mul _
    have count : (decodeEntries entries).length = n.toNat := by
      have := length_decodeEntries even
      omega
    have number : octetOf (decodeEntries entries).length = n := by
      rw [count, octetOf, BitVec.ofNat_toNat, BitVec.setWidth_eq]
    refine ⟨count ▸ atMost, ?_⟩
    rw [encodeSection_eq, twoFlags_of_spare spare, octets16_append, octets16_append, number,
      encodeEntries_decodeEntries even]
    rfl

/-! ## Tables (R69) -/

theorem length_encodeTable (t : Table) : (encodeTable t).length =
    504 + 2 * (t.sections.toList.map fun r => r.boundary.length).sum := by
  have global : (encodeGlobal t.global).length = 8 := rfl
  have heads : (t.heads.toList.flatMap encodeHead).length = 32 * 11 := by
    simp [List.length_flatMap, encodeHead, octets16, octets24]
  have sections : (t.sections.toList.flatMap encodeSection).length =
      24 * 6 + 2 * (t.sections.toList.map fun r => r.boundary.length).sum := by
    simp [List.length_flatMap, length_encodeSection, List.sum_map_mul_left]
  rw [encodeTable, List.length_append, List.length_append, global, heads, sections]
  omega

theorem length_encodeTable_bounds {t : Table} (atMost : ∀ i, (t.sectionCfg i).boundary.length ≤ 4) :
    504 ≤ (encodeTable t).length ∧ (encodeTable t).length ≤ 696 := by
  have entries : (t.sections.toList.map fun r => r.boundary.length).sum ≤ 24 * 4 := by
    have bound : ∀ n ∈ t.sections.toList.map fun r => r.boundary.length, n ≤ 4 := by
      intro n listed
      obtain ⟨r, member, rfl⟩ := List.mem_map.1 listed
      obtain ⟨i, inside, rfl⟩ := Vector.mem_iff_getElem.1 (Vector.mem_toList_iff.1 member)
      exact atMost ⟨i, inside⟩
    simpa using List.sum_le_card_nsmul _ 4 bound
  rw [length_encodeTable]
  omega

/-- Settles O48: a record read back and a record written again, kind by kind, and the lengths of a table's records. -/
theorem tableRecordsReadBackAsWritten : Obligations.TableRecordsReadBackAsWritten :=
  ⟨decodeGlobal_encodeGlobal, decodeHead_encodeHead, fun _ => decodeSection_encodeSection,
    fun _ _ => encodeGlobal_of_decodeGlobal, fun _ _ => encodeHead_of_decodeHead,
    fun _ _ => encodeSection_of_decodeSection, fun _ => length_encodeTable_bounds⟩

end Sys2Proof.Machine
end
